-- ==== Sys2Proof/Word.lean ====
section
/-! DEFINITION. The widths of the buses and data types (`00_scope.md` R6, `10_state.md` R23 to R25, `30_encoding.md` R60, R61). -/

namespace Sys2Proof

/-- A byte sample (R25). -/
abbrev Byte := BitVec 8

/-- The 16-bit container of a channel sample (R23), which is also one lane of a Packed Pixel (R24). -/
abbrev Sample := BitVec 16

/-- A Packed Pixel (R24). -/
abbrev Pixel := BitVec 64

/-- The operation select `op` of a command (R60). -/
abbrev Op := BitVec 5

/-- The operand `a` of a command (R60). -/
abbrev Operand := BitVec 64

/-- The result `y` of a response (R61). -/
abbrev Result := BitVec 64

/-- A command word, the concatenation of `op` and `a` (R60). -/
abbrev CmdWord := BitVec 69

/-- A response word, the concatenation of `status` and `y` (R61). -/
abbrev RspWord := BitVec 66

end Sys2Proof
end

