-- ==== Sys2Proof/Machine/Operands.lean ====
section
/-! DEFINITION. The operand formats and the result formats (`30_encoding.md` R63 to R70). An operand is a slice of `a`: nothing is
sign-extended, scaled or shifted. A format's other bits are ignored in an operand and zero in a result. -/

namespace Sys2Proof.Machine

/-- S16: `s = a[15:0]` (R63). -/
def fieldS16 (a : Operand) : Sample := a.extractLsb' 0 16

/-- S8: `b = a[7:0]` (R64). -/
def fieldS8 (a : Operand) : Byte := a.extractLsb' 0 8

/-- Q16: `red = a[15:0]` (R65). -/
def fieldRed (a : Operand) : Sample := a.extractLsb' 0 16

/-- Q16: `green = a[31:16]` (R65). -/
def fieldGreen (a : Operand) : Sample := a.extractLsb' 16 16

/-- Q16: `blue = a[47:32]` (R65). -/
def fieldBlue (a : Operand) : Sample := a.extractLsb' 32 16

/-- Q16: `alpha = a[63:48]` (R65). -/
def fieldAlpha (a : Operand) : Sample := a.extractLsb' 48 16

/-- PX: `p = a[63:0]` (R66). -/
def fieldPX (a : Operand) : Pixel := a

/-- B4K: `r8 = a[7:0]` (R67, R42). -/
def fieldR8 (a : Operand) : Byte := a.extractLsb' 0 8

/-- B4K: `g8 = a[15:8]` (R67, R42). -/
def fieldG8 (a : Operand) : Byte := a.extractLsb' 8 8

/-- B4K: `b8 = a[23:16]` (R67, R42). -/
def fieldB8 (a : Operand) : Byte := a.extractLsb' 16 8

/-- B4K: `a8 = a[31:24]` (R67, R42). -/
def fieldA8 (a : Operand) : Byte := a.extractLsb' 24 8

/-- B4K: `keep = a[35:32]` (R67). -/
def fieldKeep (a : Operand) : BitVec 4 := a.extractLsb' 32 4

/-- The operand word of a format S16 command: `48'b0, s` (R76). -/
def layS16 (s : Sample) : Operand := 0#48 ++ s

/-- The operand word of a format S8 command: `56'b0, b` (R76). -/
def layS8 (b : Byte) : Operand := 0#56 ++ b

/-- The operand word of a format Q16 command: `a, b, g, r`, alpha in the top lane (R65, R76). -/
def layQ16 (red green blue alpha : Sample) : Operand := alpha ++ blue ++ green ++ red

/-- The operand word of a format PX command (R66, R76). -/
def layPX (p : Pixel) : Operand := p

/-- The operand word of a format B4K command: `28'b0, k, a, b, g, r` (R67, R76). -/
def layB4K (r8 g8 b8 a8 : Byte) (keep : BitVec 4) : Operand :=
  0#28 ++ keep ++ a8 ++ b8 ++ g8 ++ r8

/-- Y16: `y[15:0]` is the sample, `y[63:16]` = 0 (R68). -/
def resultY16 (v : Sample) : Result := v.setWidth 64

/-- YPX: `y[63:0]` is the pixel (R69). -/
def resultYPX (p : Pixel) : Result := p

/-- Y4B: `y[7:0]` = R byte up to `y[31:24]` = A byte, `y[63:32]` = 0 (R70, R42). -/
def resultY4B (r8 g8 b8 a8 : Byte) : Result := (a8 ++ b8 ++ g8 ++ r8).setWidth 64

/-- The sample a Y16 result carries, as the host reads it off the bus (R68). -/
def sampleOf (y : Result) : Sample := y.extractLsb' 0 16

/-- The four bytes a Y4B result carries, in the order in which the host appends them to its stream (R70). -/
def bytesOf (y : Result) : List Byte :=
  [y.extractLsb' 0 8, y.extractLsb' 8 8, y.extractLsb' 16 8, y.extractLsb' 24 8]

end Sys2Proof.Machine
end

