-- ==== Sys2Proof/Syntax.lean ====
section
/-! DEFINITION. The instructions (`30_encoding.md` R73, R74: one constructor per row of `opcode_table.json`), the depths (R10) and
the assembler's source line (R76). -/

namespace Sys2Proof

/-- A command as the decoder reads it: the operation and the bits of `a` that its operand format names (R63 to R67). Bits a format
ignores are in no constructor (U7), and a reserved code's operand is not examined (R201; log 10, log 12). -/
inductive Instr where
  /-- `RESERVED_00`, op 0x00, R74. -/
  | reserved00
  /-- `W8_10`, op 0x01, R153. -/
  | w8_10 (s : Sample)
  /-- `W8_12`, op 0x02, R154. -/
  | w8_12 (s : Sample)
  /-- `W8_16`, op 0x03, R155. -/
  | w8_16 (s : Sample)
  /-- `N10_8`, op 0x04, R182. -/
  | n10_8 (s : Sample)
  /-- `RESERVED_05`, op 0x05, R74. -/
  | reserved05
  /-- `W10_12`, op 0x06, R156. -/
  | w10_12 (s : Sample)
  /-- `W10_16`, op 0x07, R157. -/
  | w10_16 (s : Sample)
  /-- `N12_8`, op 0x08, R183. -/
  | n12_8 (s : Sample)
  /-- `N12_10`, op 0x09, R184. -/
  | n12_10 (s : Sample)
  /-- `RESERVED_0A`, op 0x0A, R74. -/
  | reserved0A
  /-- `W12_16`, op 0x0B, R158. -/
  | w12_16 (s : Sample)
  /-- `N16_8`, op 0x0C, R185. -/
  | n16_8 (s : Sample)
  /-- `N16_10`, op 0x0D, R186. -/
  | n16_10 (s : Sample)
  /-- `N16_12`, op 0x0E, R187. -/
  | n16_12 (s : Sample)
  /-- `RESERVED_0F`, op 0x0F, R74. -/
  | reserved0F
  /-- `RESERVED_10`, op 0x10, R74. -/
  | reserved10
  /-- `WB8_10`, op 0x11, R159. -/
  | wb8_10 (b : Byte)
  /-- `WB8_12`, op 0x12, R160. -/
  | wb8_12 (b : Byte)
  /-- `RESERVED_13`, op 0x13, R74. -/
  | reserved13
  /-- `PACK`, op 0x14, R101. -/
  | pack (red green blue alpha : Sample)
  /-- `PACK_RGBA32`, op 0x15, R121. -/
  | packRgba32 (r8 g8 b8 a8 : Byte) (keep : BitVec 4)
  /-- `UNPK_RGBA32`, op 0x16, R122. -/
  | unpkRgba32 (p : Pixel)
  /-- `PACK_GRAY`, op 0x17, R123. -/
  | packGray (s : Sample)
  /-- `UNPK_R`, op 0x18, R102. -/
  | unpkR (p : Pixel)
  /-- `UNPK_G`, op 0x19, R103. -/
  | unpkG (p : Pixel)
  /-- `UNPK_B`, op 0x1A, R104. -/
  | unpkB (p : Pixel)
  /-- `UNPK_A`, op 0x1B, R105. -/
  | unpkA (p : Pixel)
  /-- `RESERVED_1C`, op 0x1C, R74. -/
  | reserved1C
  /-- `RESERVED_1D`, op 0x1D, R74. -/
  | reserved1D
  /-- `RESERVED_1E`, op 0x1E, R74. -/
  | reserved1E
  /-- `RESERVED_1F`, op 0x1F, R74. -/
  | reserved1F
deriving DecidableEq, Repr

/-- The four depths of a channel sample (R6, R10). -/
inductive Depth where
  | d8
  | d10
  | d12
  | d16
deriving DecidableEq, Repr

/-- Why a number is no command word. -/
inductive DecodeError where
  /-- Bits above bit 68 are set; a command word has none (R60). -/
  | wordTooWide
deriving DecidableEq, Repr

/-- One source line of the assembler (R76): a mnemonic or one of its other names (R77), numbers, and an optional `keep=k`. -/
structure AsmLine where
  name : String
  operands : List Nat
  keep : Option Nat
deriving DecidableEq, Repr

/-- Why the assembler refuses a line (R76, R80). -/
inductive AsmError where
  /-- No operation or pseudo-operation has this name. -/
  | unknownName
  /-- The number of operands is not the format's. -/
  | operandCount
  /-- An operand does not fit its field; "it never truncates silently". -/
  | operandTooWide
  /-- `keep=` on an operation whose format has no `keep` field. -/
  | keepNotAllowed
  /-- `.op` with a code that is not reserved. -/
  | notReserved
  /-- `widen` or `narrow` at a pair of depths that has no command. -/
  | noSuchPair
  /-- The text of a number or of the line has none of R76's forms. -/
  | badText
deriving DecidableEq, Repr

end Sys2Proof
end

