-- ==== Sys2Proof/Decode.lean ====
section
/-! DEFINITION. The decoder and the encoder (`30_encoding.md` R60, R63 to R67, R71 to R76; `00_scope.md` R10). -/

namespace Sys2Proof

open Machine

/-- The number of bits of a depth (R10). -/
def Depth.bits : Depth → Nat
  | .d8 => 8
  | .d10 => 10
  | .d12 => 12
  | .d16 => 16

/-- The 2-bit code of a depth (R10). -/
def Depth.code : Depth → BitVec 2
  | .d8 => 0b00#2
  | .d10 => 0b01#2
  | .d12 => 0b10#2
  | .d16 => 0b11#2

/-- The operation a command asks for and its operand fields (R73, R74). Total, and which row is chosen depends on `op` alone (R75). -/
def decodeCmd (op : Op) (a : Operand) : Instr :=
  match op.toNat with
  | 0x00 => .reserved00
  | 0x01 => .w8_10 (fieldS16 a)
  | 0x02 => .w8_12 (fieldS16 a)
  | 0x03 => .w8_16 (fieldS16 a)
  | 0x04 => .n10_8 (fieldS16 a)
  | 0x05 => .reserved05
  | 0x06 => .w10_12 (fieldS16 a)
  | 0x07 => .w10_16 (fieldS16 a)
  | 0x08 => .n12_8 (fieldS16 a)
  | 0x09 => .n12_10 (fieldS16 a)
  | 0x0A => .reserved0A
  | 0x0B => .w12_16 (fieldS16 a)
  | 0x0C => .n16_8 (fieldS16 a)
  | 0x0D => .n16_10 (fieldS16 a)
  | 0x0E => .n16_12 (fieldS16 a)
  | 0x0F => .reserved0F
  | 0x10 => .reserved10
  | 0x11 => .wb8_10 (fieldS8 a)
  | 0x12 => .wb8_12 (fieldS8 a)
  | 0x13 => .reserved13
  | 0x14 => .pack (fieldRed a) (fieldGreen a) (fieldBlue a) (fieldAlpha a)
  | 0x15 => .packRgba32 (fieldR8 a) (fieldG8 a) (fieldB8 a) (fieldA8 a) (fieldKeep a)
  | 0x16 => .unpkRgba32 (fieldPX a)
  | 0x17 => .packGray (fieldS16 a)
  | 0x18 => .unpkR (fieldPX a)
  | 0x19 => .unpkG (fieldPX a)
  | 0x1A => .unpkB (fieldPX a)
  | 0x1B => .unpkA (fieldPX a)
  | 0x1C => .reserved1C
  | 0x1D => .reserved1D
  | 0x1E => .reserved1E
  | _ => .reserved1F  -- 0x1F, the one code left

/-- `op` is `cmd[68:64]` and `a` is `cmd[63:0]` (R60). -/
def decodeWord (w : CmdWord) : Instr :=
  decodeCmd (w.extractLsb' 64 5) (w.extractLsb' 0 64)

/-- A number read as a command word: bits 71 to 69 of the 18 digits do not exist (R60), so a number with a bit above bit 68 is
refused by name (log 12). -/
def decodeNat (w : Nat) : Except DecodeError Instr :=
  if w < 2 ^ 69 then .ok (decodeWord (BitVec.ofNat 69 w)) else .error .wordTooWide

/-- The instruction whose bits, numbered as `opcode_table.json` numbers them, are the low `nbits` bits of `w`, all others 0. -/
def decodeTableWord (nbits w : Nat) : Option Instr :=
  (decodeNat (w % 2 ^ nbits)).toOption

/-- The operation select of a command (R73). -/
def encodeOp : Instr → Op
  | .reserved00 => 0x00#5
  | .w8_10 _ => 0x01#5
  | .w8_12 _ => 0x02#5
  | .w8_16 _ => 0x03#5
  | .n10_8 _ => 0x04#5
  | .reserved05 => 0x05#5
  | .w10_12 _ => 0x06#5
  | .w10_16 _ => 0x07#5
  | .n12_8 _ => 0x08#5
  | .n12_10 _ => 0x09#5
  | .reserved0A => 0x0A#5
  | .w12_16 _ => 0x0B#5
  | .n16_8 _ => 0x0C#5
  | .n16_10 _ => 0x0D#5
  | .n16_12 _ => 0x0E#5
  | .reserved0F => 0x0F#5
  | .reserved10 => 0x10#5
  | .wb8_10 _ => 0x11#5
  | .wb8_12 _ => 0x12#5
  | .reserved13 => 0x13#5
  | .pack _ _ _ _ => 0x14#5
  | .packRgba32 _ _ _ _ _ => 0x15#5
  | .unpkRgba32 _ => 0x16#5
  | .packGray _ => 0x17#5
  | .unpkR _ => 0x18#5
  | .unpkG _ => 0x19#5
  | .unpkB _ => 0x1A#5
  | .unpkA _ => 0x1B#5
  | .reserved1C => 0x1C#5
  | .reserved1D => 0x1D#5
  | .reserved1E => 0x1E#5
  | .reserved1F => 0x1F#5

/-- The operand word of a command, ignored bits 0 (R76). -/
def encodeOperand : Instr → Operand
  | .reserved00 => 0#64
  | .w8_10 s => layS16 s
  | .w8_12 s => layS16 s
  | .w8_16 s => layS16 s
  | .n10_8 s => layS16 s
  | .reserved05 => 0#64
  | .w10_12 s => layS16 s
  | .w10_16 s => layS16 s
  | .n12_8 s => layS16 s
  | .n12_10 s => layS16 s
  | .reserved0A => 0#64
  | .w12_16 s => layS16 s
  | .n16_8 s => layS16 s
  | .n16_10 s => layS16 s
  | .n16_12 s => layS16 s
  | .reserved0F => 0#64
  | .reserved10 => 0#64
  | .wb8_10 b => layS8 b
  | .wb8_12 b => layS8 b
  | .reserved13 => 0#64
  | .pack r g b a => layQ16 r g b a
  | .packRgba32 r g b a k => layB4K r g b a k
  | .unpkRgba32 p => layPX p
  | .packGray s => layS16 s
  | .unpkR p => layPX p
  | .unpkG p => layPX p
  | .unpkB p => layPX p
  | .unpkA p => layPX p
  | .reserved1C => 0#64
  | .reserved1D => 0#64
  | .reserved1E => 0#64
  | .reserved1F => 0#64

/-- The command word, the concatenation of `op` and `a` (R60, R76). -/
def encode (i : Instr) : CmdWord :=
  encodeOp i ++ encodeOperand i

end Sys2Proof
end

