-- ==== Sys2Proof/Config.lean ====
section
/-! DEFINITION. What an implementation fixes and what the spec leaves open (`00_scope.md` R6, `93_implementation_defined.md`).
Every constant here is opaque: no proof can see its value, so a statement holds whatever it is. -/

namespace Sys2Proof

/-- The parameter `OOR_MODE` (R6, R152): what a 16-bit-container conversion returns for a sample that does not fit its
declared source depth. -/
inductive OorMode where
  /-- The documented formula evaluated in the 16-bit container; the default. -/
  | container16
  /-- The mode the spec calls `opaque`: the uninterpreted value `Config.oor`. -/
  | opaqueOor
deriving DecidableEq, Repr, Inhabited

/-- `oor(op, s)` of R152: a total function of the operation and the operand of which nothing is assumed (U1, log 3). -/
opaque Config.oor : Op → Sample → Sample

/-- `LATENCY` (R6, R238, U11), for the command accepted at the given rising edge: how many cycles lie between the command
and its response at the least. OPEN; it may differ from command to command (log 4). -/
opaque Config.latency : Nat → Nat

/-- Whether `cmd_ready` is 1 at the given rising edge while a command is in flight (R62; queue depth unspecified, D16, U11;
log 5). -/
opaque Config.acceptsWhileBusy : Nat → Bool

/-- What `rsp_y` carries at the given rising edge when the presented status is not OK (R204, U6; log 6). -/
opaque Config.failedY : Nat → Result

/-- What `rsp_status` carries at the given rising edge while `rsp_valid` = 0 (R31, U9; log 6). -/
opaque Config.undrivenStatus : Nat → BitVec 2

/-- What `rsp_y` carries at the given rising edge while `rsp_valid` = 0 (R31, U9; log 6). -/
opaque Config.undrivenY : Nat → Result

/-- What `cmd_ready` carries at the given rising edge while `rst` = 1 (U9; log 6). -/
opaque Config.readyInReset : Nat → Bool

end Sys2Proof
end

