-- ==== Sys2Proof/Machine/State.lean ====
section
/-! DEFINITION. The state of the block between two rising edges of `clk`. The spec gives the block no register, no program counter,
no flag, no memory and no mode (`10_state.md` R20 to R22, `20_memory.md` R40, `60_exceptions.md` R208); what it does give is the
in-flight queue (R30), the ports (R62) and the parameters (R6). -/

namespace Sys2Proof.Machine

/-- The input pins at one rising edge (R62). -/
structure InPins where
  /-- `rst`, synchronous, active high (R230). -/
  rst : Bool
  /-- `cmd_valid`. -/
  cmdValid : Bool
  /-- `cmd_op[4:0]`. -/
  cmdOp : Op
  /-- `cmd_a[63:0]`. -/
  cmdA : Operand
  /-- `rsp_ready`. -/
  rspReady : Bool
deriving DecidableEq, Repr

/-- The output pins in one clock cycle (R62). -/
structure OutWires where
  /-- `cmd_ready`. -/
  cmdReady : Bool
  /-- `rsp_valid`. -/
  rspValid : Bool
  /-- `rsp_status[1:0]`. -/
  rspStatus : BitVec 2
  /-- `rsp_y[63:0]`. -/
  rspY : Result
deriving DecidableEq, Repr

/-- The two faults of a command (R200). They are reported in the command's response and stop nothing (R206). -/
inductive CmdFault where
  /-- The operation select is a reserved code (R201). -/
  | illegalOp
  /-- A `PACK_RGBA32` group that the stream did not fill (R202). -/
  | invalidInput
deriving DecidableEq, Repr

/-- A response (R61, R200). A failed command has no result (R204, U6), and there is no fourth status (U8). -/
inductive Response where
  | ok (y : Result)
  | fail (f : CmdFault)
deriving DecidableEq, Repr

/-- A command accepted and not yet answered (R30). -/
structure InFlight where
  /-- The command. -/
  cmd : Instr
  /-- The response it will get, a function of the command alone (R47; log 10). -/
  rsp : Response
  /-- The rising edge at which it was accepted. -/
  acceptedAt : Nat
deriving DecidableEq, Repr

/-- The block, its environment's coming pin values and the history of the run. -/
structure State where
  /-- `OOR_MODE` (R6, R152): fixed for the block, written by no step (log 3). -/
  oorMode : OorMode
  /-- The model's own: the input pins at the coming rising edges, the next edge first (log 1). -/
  inputs : List InPins
  /-- The commands accepted and not yet answered, oldest first (R30, R31). -/
  inFlight : List InFlight
  /-- The model's own: the commands accepted since reset, oldest first (R21, R241; log 7). -/
  accepted : List Instr
  /-- The model's own: the responses taken by the host since reset, oldest first (R209, R241; log 7). -/
  answered : List Response
  /-- The model's own: the number of rising edges so far, which indexes the free values of `Config` (log 8). -/
  cycle : Nat
deriving DecidableEq, Repr

/-- No command stops the block: its two faults are responses, after which it goes on (R206, R208; log 2). So there is no reason for
a step to end in a fault. -/
inductive Fault where
deriving DecidableEq, Repr

/-- Why a step has no meaning. -/
inductive Refusal where
  /-- The instruction of this mnemonic has no meaning in the model yet. Raised by an arm of `exec`; no arm raises it now. Safe. -/
  | notModelled (mnemonic : String)
deriving DecidableEq, Repr

/-- The block after reset (R31, R230, R231): nothing in flight, "no command issued, no response produced", `OOR_MODE` at its default
(R6). That no pin value is scheduled and the count of edges is 0 are the model's (log 1, log 8). -/
def State.reset : State where
  oorMode := .container16
  inputs := []
  inFlight := []
  accepted := []
  answered := []
  cycle := 0

end Sys2Proof.Machine
end

