-- ==== Sys2Proof/Machine/Flags.lean ====
section
/-! DEFINITION. The block has no flags (`10_state.md` R22), and every operation rule says "Flags written: none". Its one status
indication is the `status` field of a response (`60_exceptions.md` R200, `30_encoding.md` R61), which is computed here. -/

namespace Sys2Proof.Machine

/-- The code of the `status` field (R200). -/
def Response.statusCode : Response → BitVec 2
  | .ok _ => 0b00#2
  | .fail .illegalOp => 0b01#2
  | .fail .invalidInput => 0b10#2

/-- The response a host reads from the status and the result bus (R61, R200). It does not look at `y` unless the status is OK (R204),
and status `11` is no response of the block (U8). -/
def readResponse (status : BitVec 2) (y : Result) : Option Response :=
  match status.toNat with
  | 0b00 => some (.ok y)
  | 0b01 => some (.fail .illegalOp)
  | 0b10 => some (.fail .invalidInput)
  | _ => none

/-- The response word, the concatenation of `status` and `y`, when the result bus carries `free` beside a status that is not
OK (R61, R204). -/
def responseWord (r : Response) (free : Result) : RspWord :=
  match r with
  | .ok y => r.statusCode ++ y
  | .fail _ => r.statusCode ++ free

end Sys2Proof.Machine
end

