-- ==== Sys2Proof/Machine/Ops.lean ====
section
/-! DEFINITION. The arithmetic the operations share (`42_remap_widen.md` R150 to R152, `43_remap_narrow.md` R180, R188,
`40_packed_pixel_codec.md` R101 to R106, `41_buffer_conversions.md` R120), how a command is answered, and what a rising edge does
(`30_encoding.md` R62, `70_reset_and_hazards.md` R230, R238). -/

namespace Sys2Proof.Machine

/-- `shl_16(v, k)`: bits shifted past bit 15 are discarded (R9). -/
def shl16 (v : Sample) (k : Nat) : Sample := v <<< k

/-- Widening from depth `S` to depth `T` by bit replication (R150), on the whole 16-bit container. -/
def widen (S T : Depth) (v : Sample) : Sample :=
  shl16 v (T.bits - S.bits) ||| (v >>> (2 * S.bits - T.bits))

/-- Narrowing from depth `S` to depth `T` by truncation of the low bits (R180), on the whole 16-bit container. -/
def narrow (S T : Depth) (v : Sample) : Sample :=
  v >>> (S.bits - T.bits)

/-- The value of a container conversion `op` of the sample `s` of declared depth `S`, whose formula gives `v` (R152, R188): under
`OOR_MODE` = `opaque` a sample that does not fit its depth gets the uninterpreted `oor(op, s)`. -/
def convert (m : OorMode) (op : Op) (S : Depth) (s v : Sample) : Sample :=
  if 2 ^ S.bits ≤ s.toNat ∧ m = .opaqueOor then Config.oor op s else v

/-- `w8_16(b)`: the byte replicated into both halves (R120). -/
def byteTo16 (b : Byte) : Sample := shl16 (b.setWidth 16) 8 ||| b.setWidth 16

/-- `n16_8(c)`: the high byte of a lane (R120). -/
def highByte (c : Sample) : Byte := (c >>> 8).setWidth 8

/-- The constructor of a Packed Pixel (R101): `(alpha << 48) + (blue << 32) + (green << 16) + red`. -/
def packPixel (red green blue alpha : Sample) : Pixel :=
  (alpha.setWidth 64 <<< 48) + (blue.setWidth 64 <<< 32) + (green.setWidth 64 <<< 16) + red.setWidth 64

/-- The accessor of lane `n`: shift right by `16 * n`, truncate to 16 bits (R102 to R106). -/
def lane (n : Nat) (p : Pixel) : Sample := (p >>> (16 * n)).setWidth 16

/-- Raising a fault: the response has that status and no result (R9, R201, R202). Nothing is saved, no control is transferred and
there is nothing to return from (R206, R208). -/
def raise (f : CmdFault) : Response := .fail f

/-- The block takes the command `i`, whose response will be `r`, into its queue at this rising edge (R30, R46). -/
def State.accept (s : State) (i : Instr) (r : Response) : State :=
  { s with
    inFlight := s.inFlight ++ [⟨i, r, s.cycle⟩]
    accepted := s.accepted ++ [i] }

/-- What executing a command comes to: exactly one response to it, and nothing else (R22, R62). -/
def State.answer (s : State) (i : Instr) (r : Response) : Host.Outcome State Fault Refusal :=
  .next (s.accept i r)

/-- Inputs at which the host asks for nothing, takes nothing and does not reset (log 1). -/
def quietPins : InPins where
  rst := false
  cmdValid := false
  cmdOp := 0
  cmdA := 0
  rspReady := false

/-- The input pins at the coming rising edge (R62). -/
def State.pins (s : State) : InPins := s.inputs.headD quietPins

/-- `cmd_ready` outside reset (R31, R62): 1 when nothing is in flight, free while something is (log 5). -/
def State.cmdReady (s : State) : Bool := s.inFlight.isEmpty || Config.acceptsWhileBusy s.cycle

/-- A command is transferred on an edge at which `rst` = 0 and `cmd_valid` = `cmd_ready` = 1 (R62). -/
def State.cmdTransfer (s : State) : Bool := !s.pins.rst && s.pins.cmdValid && s.cmdReady

/-- The command on the pins: `cmd_op` and `cmd_a` are sampled on the edge and at no other time (R50, R62). -/
def State.fetched (s : State) : Instr := decodeCmd s.pins.cmdOp s.pins.cmdA

/-- `LATENCY` cycles have passed since the command was accepted (R238; log 4). -/
def State.due (s : State) (e : InFlight) : Bool := decide (e.acceptedAt + Config.latency e.acceptedAt ≤ s.cycle)

/-- The response on the response channel, if there is one: that of the oldest command in flight, once it is due (R46, R62). -/
def State.presented (s : State) : Option Response :=
  match s.inFlight with
  | [] => none
  | e :: _ => if s.due e then some e.rsp else none

/-- `rsp_valid` outside reset (R31, R62). -/
def State.rspValid (s : State) : Bool := s.presented.isSome

/-- The transfer of a response: on an edge at which `rsp_valid` = `rsp_ready` = 1 the host takes the presented response (R62). -/
def State.deliver (s : State) : State :=
  if s.pins.rspReady then
    match s.presented with
    | some r => { s with inFlight := s.inFlight.tail, answered := s.answered ++ [r] }
    | none => s
  else s

/-- One rising edge is over: the next pin values come up. -/
def State.tick (s : State) : State := { s with inputs := s.inputs.tail, cycle := s.cycle + 1 }

/-- What an edge with `rst` = 0 does after a command has been accepted or not: a due response is taken or not, and the edge is over.
With `LATENCY` = 0 a response is transferred in the beat of its command (R238; log 9). -/
def State.endEdge (s : State) : State := s.deliver.tick

/-- An edge with `rst` = 1: the queue is emptied, no command is accepted, no response is presented (R230), and the run that follows is a
new one (R231; log 7). -/
def State.resetEdge (s : State) : State :=
  State.tick { s with inFlight := [], accepted := [], answered := [] }

end Sys2Proof.Machine
end

