-- ==== Sys2Proof/Machine/BufferSteps.lean ====
section
/-! DEFINITION. The element steps of the buffer conversions (`41_buffer_conversions.md` R120 to R123). -/

namespace Sys2Proof.Machine

/-- The response to `PACK_RGBA32` (R121): InvalidInput unless the group is full, else each byte widened by replication and the four packed. -/
def respPackRgba32 (r : Byte) (g : Byte) (b : Byte) (a : Byte) (k : BitVec 4) : Response :=
  if k ≠ 0b1111#4 then raise .invalidInput
  else .ok (resultYPX (packPixel (byteTo16 r) (byteTo16 g) (byteTo16 b) (byteTo16 a)))

/-- `PACK_RGBA32` (R121): one response, nothing else. -/
def execPackRgba32 (r : Byte) (g : Byte) (b : Byte) (a : Byte) (k : BitVec 4) (s : State) : Host.Outcome State Fault Refusal :=
  s.answer (.packRgba32 r g b a k) (respPackRgba32 r g b a k)

/-- The response to `UNPK_RGBA32` (R122): the high byte of each lane. -/
def respUnpkRgba32 (p : Pixel) : Response :=
  .ok (resultY4B (highByte (lane 0 p)) (highByte (lane 1 p)) (highByte (lane 2 p)) (highByte (lane 3 p)))

/-- `UNPK_RGBA32` (R122): one response, nothing else. -/
def execUnpkRgba32 (p : Pixel) (s : State) : Host.Outcome State Fault Refusal :=
  s.answer (.unpkRgba32 p) (respUnpkRgba32 p)

/-- The response to `PACK_GRAY` (R123): an opaque gray pixel; the sample is not scaled. -/
def respPackGray (v : Sample) : Response :=
  .ok (resultYPX (packPixel v v v 0xFFFF#16))

/-- `PACK_GRAY` (R123): one response, nothing else. -/
def execPackGray (v : Sample) (s : State) : Host.Outcome State Fault Refusal :=
  s.answer (.packGray v) (respPackGray v)

end Sys2Proof.Machine
end

