-- ==== Sys2Proof/Machine/Codec.lean ====
section
/-! DEFINITION. The Packed Pixel Codec (`40_packed_pixel_codec.md`). Total; no flags, no exceptions (R100). -/

namespace Sys2Proof.Machine

/-- The response to `PACK` (R101): the four channels in their lanes; nothing is checked, scaled or clamped (R109). -/
def respPack (r : Sample) (g : Sample) (b : Sample) (a : Sample) : Response :=
  .ok (resultYPX (packPixel r g b a))

/-- `PACK` (R101): one response, nothing else. -/
def execPack (r : Sample) (g : Sample) (b : Sample) (a : Sample) (s : State) : Host.Outcome State Fault Refusal :=
  s.answer (.pack r g b a) (respPack r g b a)

/-- The response to `UNPK_R` (R102): the red lane. -/
def respUnpkR (p : Pixel) : Response :=
  .ok (resultY16 (lane 0 p))

/-- `UNPK_R` (R102): one response, nothing else. -/
def execUnpkR (p : Pixel) (s : State) : Host.Outcome State Fault Refusal :=
  s.answer (.unpkR p) (respUnpkR p)

/-- The response to `UNPK_G` (R103): the green lane. -/
def respUnpkG (p : Pixel) : Response :=
  .ok (resultY16 (lane 1 p))

/-- `UNPK_G` (R103): one response, nothing else. -/
def execUnpkG (p : Pixel) (s : State) : Host.Outcome State Fault Refusal :=
  s.answer (.unpkG p) (respUnpkG p)

/-- The response to `UNPK_B` (R104): the blue lane. -/
def respUnpkB (p : Pixel) : Response :=
  .ok (resultY16 (lane 2 p))

/-- `UNPK_B` (R104): one response, nothing else. -/
def execUnpkB (p : Pixel) (s : State) : Host.Outcome State Fault Refusal :=
  s.answer (.unpkB p) (respUnpkB p)

/-- The response to `UNPK_A` (R105): the alpha lane. -/
def respUnpkA (p : Pixel) : Response :=
  .ok (resultY16 (lane 3 p))

/-- `UNPK_A` (R105): one response, nothing else. -/
def execUnpkA (p : Pixel) (s : State) : Host.Outcome State Fault Refusal :=
  s.answer (.unpkA p) (respUnpkA p)

end Sys2Proof.Machine
end

