-- ==== Sys2Proof/Machine/Narrow.lean ====
section
/-! DEFINITION. Narrowing (`43_remap_narrow.md`). Flags: none. Exceptions: none. -/

namespace Sys2Proof.Machine

/-- The response to `N10_8` (R182): narrow 10 to 8; an out-of-range sample by `OOR_MODE` (R188). -/
def respN10_8 (m : OorMode) (v : Sample) : Response :=
  .ok (resultY16 (convert m 0x04#5 .d10 v (narrow .d10 .d8 v)))

/-- `N10_8` (R182): one response, nothing else. -/
def execN10_8 (v : Sample) (s : State) : Host.Outcome State Fault Refusal :=
  s.answer (.n10_8 v) (respN10_8 s.oorMode v)

/-- The response to `N12_8` (R183): narrow 12 to 8; an out-of-range sample by `OOR_MODE` (R188). -/
def respN12_8 (m : OorMode) (v : Sample) : Response :=
  .ok (resultY16 (convert m 0x08#5 .d12 v (narrow .d12 .d8 v)))

/-- `N12_8` (R183): one response, nothing else. -/
def execN12_8 (v : Sample) (s : State) : Host.Outcome State Fault Refusal :=
  s.answer (.n12_8 v) (respN12_8 s.oorMode v)

/-- The response to `N12_10` (R184): narrow 12 to 10; an out-of-range sample by `OOR_MODE` (R188). -/
def respN12_10 (m : OorMode) (v : Sample) : Response :=
  .ok (resultY16 (convert m 0x09#5 .d12 v (narrow .d12 .d10 v)))

/-- `N12_10` (R184): one response, nothing else. -/
def execN12_10 (v : Sample) (s : State) : Host.Outcome State Fault Refusal :=
  s.answer (.n12_10 v) (respN12_10 s.oorMode v)

/-- The response to `N16_8` (R185): narrow 16 to 8; every 16-bit sample is in range. -/
def respN16_8 (v : Sample) : Response :=
  .ok (resultY16 (narrow .d16 .d8 v))

/-- `N16_8` (R185): one response, nothing else. -/
def execN16_8 (v : Sample) (s : State) : Host.Outcome State Fault Refusal :=
  s.answer (.n16_8 v) (respN16_8 v)

/-- The response to `N16_10` (R186): narrow 16 to 10; every 16-bit sample is in range. -/
def respN16_10 (v : Sample) : Response :=
  .ok (resultY16 (narrow .d16 .d10 v))

/-- `N16_10` (R186): one response, nothing else. -/
def execN16_10 (v : Sample) (s : State) : Host.Outcome State Fault Refusal :=
  s.answer (.n16_10 v) (respN16_10 v)

/-- The response to `N16_12` (R187): narrow 16 to 12; every 16-bit sample is in range. -/
def respN16_12 (v : Sample) : Response :=
  .ok (resultY16 (narrow .d16 .d12 v))

/-- `N16_12` (R187): one response, nothing else. -/
def execN16_12 (v : Sample) (s : State) : Host.Outcome State Fault Refusal :=
  s.answer (.n16_12 v) (respN16_12 v)

end Sys2Proof.Machine
end

