-- ==== Sys2Proof/Machine/Reserved.lean ====
section
/-! DEFINITION. The ten reserved codes (`30_encoding.md` R74, `60_exceptions.md` R201): answered IllegalOp, the operand not examined; never the
identity, never a neighbouring operation. The block then goes on (R206; log 2). -/

namespace Sys2Proof.Machine

/-- The response to the reserved code 0x00 (R74, R201): IllegalOp, and no value. -/
def respReserved00 : Response :=
  raise .illegalOp

/-- `RESERVED_00` (R74): one response, nothing else. -/
def execReserved00 (s : State) : Host.Outcome State Fault Refusal :=
  s.answer .reserved00 respReserved00

/-- The response to the reserved code 0x05 (R74, R201): IllegalOp, and no value. -/
def respReserved05 : Response :=
  raise .illegalOp

/-- `RESERVED_05` (R74): one response, nothing else. -/
def execReserved05 (s : State) : Host.Outcome State Fault Refusal :=
  s.answer .reserved05 respReserved05

/-- The response to the reserved code 0x0A (R74, R201): IllegalOp, and no value. -/
def respReserved0A : Response :=
  raise .illegalOp

/-- `RESERVED_0A` (R74): one response, nothing else. -/
def execReserved0A (s : State) : Host.Outcome State Fault Refusal :=
  s.answer .reserved0A respReserved0A

/-- The response to the reserved code 0x0F (R74, R201): IllegalOp, and no value. -/
def respReserved0F : Response :=
  raise .illegalOp

/-- `RESERVED_0F` (R74): one response, nothing else. -/
def execReserved0F (s : State) : Host.Outcome State Fault Refusal :=
  s.answer .reserved0F respReserved0F

/-- The response to the reserved code 0x10 (R74, R201): IllegalOp, and no value. -/
def respReserved10 : Response :=
  raise .illegalOp

/-- `RESERVED_10` (R74): one response, nothing else. -/
def execReserved10 (s : State) : Host.Outcome State Fault Refusal :=
  s.answer .reserved10 respReserved10

/-- The response to the reserved code 0x13 (R74, R201): IllegalOp, and no value. -/
def respReserved13 : Response :=
  raise .illegalOp

/-- `RESERVED_13` (R74): one response, nothing else. -/
def execReserved13 (s : State) : Host.Outcome State Fault Refusal :=
  s.answer .reserved13 respReserved13

/-- The response to the reserved code 0x1C (R74, R201): IllegalOp, and no value. -/
def respReserved1C : Response :=
  raise .illegalOp

/-- `RESERVED_1C` (R74): one response, nothing else. -/
def execReserved1C (s : State) : Host.Outcome State Fault Refusal :=
  s.answer .reserved1C respReserved1C

/-- The response to the reserved code 0x1D (R74, R201): IllegalOp, and no value. -/
def respReserved1D : Response :=
  raise .illegalOp

/-- `RESERVED_1D` (R74): one response, nothing else. -/
def execReserved1D (s : State) : Host.Outcome State Fault Refusal :=
  s.answer .reserved1D respReserved1D

/-- The response to the reserved code 0x1E (R74, R201): IllegalOp, and no value. -/
def respReserved1E : Response :=
  raise .illegalOp

/-- `RESERVED_1E` (R74): one response, nothing else. -/
def execReserved1E (s : State) : Host.Outcome State Fault Refusal :=
  s.answer .reserved1E respReserved1E

/-- The response to the reserved code 0x1F (R74, R201): IllegalOp, and no value. -/
def respReserved1F : Response :=
  raise .illegalOp

/-- `RESERVED_1F` (R74): one response, nothing else. -/
def execReserved1F (s : State) : Host.Outcome State Fault Refusal :=
  s.answer .reserved1F respReserved1F

end Sys2Proof.Machine
end

