-- ==== Sys2Proof/Machine/Widen.lean ====
section
/-! DEFINITION. Widening (`42_remap_widen.md`): the six container widenings and the two byte-container ones. Flags: none. Exceptions: none. -/

namespace Sys2Proof.Machine

/-- The response to `W8_10` (R153): widen 8 to 10; an out-of-range sample by `OOR_MODE` (R152). -/
def respW8_10 (m : OorMode) (v : Sample) : Response :=
  .ok (resultY16 (convert m 0x01#5 .d8 v (widen .d8 .d10 v)))

/-- `W8_10` (R153): one response, nothing else. -/
def execW8_10 (v : Sample) (s : State) : Host.Outcome State Fault Refusal :=
  s.answer (.w8_10 v) (respW8_10 s.oorMode v)

/-- The response to `W8_12` (R154): widen 8 to 12; an out-of-range sample by `OOR_MODE` (R152). -/
def respW8_12 (m : OorMode) (v : Sample) : Response :=
  .ok (resultY16 (convert m 0x02#5 .d8 v (widen .d8 .d12 v)))

/-- `W8_12` (R154): one response, nothing else. -/
def execW8_12 (v : Sample) (s : State) : Host.Outcome State Fault Refusal :=
  s.answer (.w8_12 v) (respW8_12 s.oorMode v)

/-- The response to `W8_16` (R155): widen 8 to 16; an out-of-range sample by `OOR_MODE` (R152). -/
def respW8_16 (m : OorMode) (v : Sample) : Response :=
  .ok (resultY16 (convert m 0x03#5 .d8 v (widen .d8 .d16 v)))

/-- `W8_16` (R155): one response, nothing else. -/
def execW8_16 (v : Sample) (s : State) : Host.Outcome State Fault Refusal :=
  s.answer (.w8_16 v) (respW8_16 s.oorMode v)

/-- The response to `W10_12` (R156): widen 10 to 12; an out-of-range sample by `OOR_MODE` (R152). -/
def respW10_12 (m : OorMode) (v : Sample) : Response :=
  .ok (resultY16 (convert m 0x06#5 .d10 v (widen .d10 .d12 v)))

/-- `W10_12` (R156): one response, nothing else. -/
def execW10_12 (v : Sample) (s : State) : Host.Outcome State Fault Refusal :=
  s.answer (.w10_12 v) (respW10_12 s.oorMode v)

/-- The response to `W10_16` (R157): widen 10 to 16; an out-of-range sample by `OOR_MODE` (R152). -/
def respW10_16 (m : OorMode) (v : Sample) : Response :=
  .ok (resultY16 (convert m 0x07#5 .d10 v (widen .d10 .d16 v)))

/-- `W10_16` (R157): one response, nothing else. -/
def execW10_16 (v : Sample) (s : State) : Host.Outcome State Fault Refusal :=
  s.answer (.w10_16 v) (respW10_16 s.oorMode v)

/-- The response to `W12_16` (R158): widen 12 to 16; an out-of-range sample by `OOR_MODE` (R152). -/
def respW12_16 (m : OorMode) (v : Sample) : Response :=
  .ok (resultY16 (convert m 0x0B#5 .d12 v (widen .d12 .d16 v)))

/-- `W12_16` (R158): one response, nothing else. -/
def execW12_16 (v : Sample) (s : State) : Host.Outcome State Fault Refusal :=
  s.answer (.w12_16 v) (respW12_16 s.oorMode v)

/-- The response to `WB8_10` (R159): widen a byte, always in range, to 10; `OOR_MODE` has no effect. -/
def respWb8_10 (b : Byte) : Response :=
  .ok (resultY16 (widen .d8 .d10 (b.setWidth 16)))

/-- `WB8_10` (R159): one response, nothing else. -/
def execWb8_10 (b : Byte) (s : State) : Host.Outcome State Fault Refusal :=
  s.answer (.wb8_10 b) (respWb8_10 b)

/-- The response to `WB8_12` (R160): widen a byte, always in range, to 12; `OOR_MODE` has no effect. -/
def respWb8_12 (b : Byte) : Response :=
  .ok (resultY16 (widen .d8 .d12 (b.setWidth 16)))

/-- `WB8_12` (R160): one response, nothing else. -/
def execWb8_12 (b : Byte) (s : State) : Host.Outcome State Fault Refusal :=
  s.answer (.wb8_12 b) (respWb8_12 b)

end Sys2Proof.Machine
end

