-- ==== Sys2Proof/Machine/Dispatch.lean ====
section
/-! DEFINITION. One arm per instruction: its meaning. -/

namespace Sys2Proof.Machine

/-- Executing the command `i` when it has just been transferred to the block (`30_encoding.md` R62). -/
def exec (i : Instr) (s : State) : Host.Outcome State Fault Refusal :=
  match i with
  | .reserved00 => Sys2Proof.Machine.execReserved00 s
  | .w8_10 v => Sys2Proof.Machine.execW8_10 v s
  | .w8_12 v => Sys2Proof.Machine.execW8_12 v s
  | .w8_16 v => Sys2Proof.Machine.execW8_16 v s
  | .n10_8 v => Sys2Proof.Machine.execN10_8 v s
  | .reserved05 => Sys2Proof.Machine.execReserved05 s
  | .w10_12 v => Sys2Proof.Machine.execW10_12 v s
  | .w10_16 v => Sys2Proof.Machine.execW10_16 v s
  | .n12_8 v => Sys2Proof.Machine.execN12_8 v s
  | .n12_10 v => Sys2Proof.Machine.execN12_10 v s
  | .reserved0A => Sys2Proof.Machine.execReserved0A s
  | .w12_16 v => Sys2Proof.Machine.execW12_16 v s
  | .n16_8 v => Sys2Proof.Machine.execN16_8 v s
  | .n16_10 v => Sys2Proof.Machine.execN16_10 v s
  | .n16_12 v => Sys2Proof.Machine.execN16_12 v s
  | .reserved0F => Sys2Proof.Machine.execReserved0F s
  | .reserved10 => Sys2Proof.Machine.execReserved10 s
  | .wb8_10 b => Sys2Proof.Machine.execWb8_10 b s
  | .wb8_12 b => Sys2Proof.Machine.execWb8_12 b s
  | .reserved13 => Sys2Proof.Machine.execReserved13 s
  | .pack r g b a => Sys2Proof.Machine.execPack r g b a s
  | .packRgba32 r g b a k => Sys2Proof.Machine.execPackRgba32 r g b a k s
  | .unpkRgba32 p => Sys2Proof.Machine.execUnpkRgba32 p s
  | .packGray v => Sys2Proof.Machine.execPackGray v s
  | .unpkR p => Sys2Proof.Machine.execUnpkR p s
  | .unpkG p => Sys2Proof.Machine.execUnpkG p s
  | .unpkB p => Sys2Proof.Machine.execUnpkB p s
  | .unpkA p => Sys2Proof.Machine.execUnpkA p s
  | .reserved1C => Sys2Proof.Machine.execReserved1C s
  | .reserved1D => Sys2Proof.Machine.execReserved1D s
  | .reserved1E => Sys2Proof.Machine.execReserved1E s
  | .reserved1F => Sys2Proof.Machine.execReserved1F s

end Sys2Proof.Machine
end

