-- ==== Sys2Proof/Machine/Edge.lean ====
section
/-! DEFINITION. One rising edge of `clk`, and what the output pins carry in the cycle before it (`30_encoding.md` R62). -/

namespace Sys2Proof.Machine

/-- The first part of an edge with `rst` = 0: the command on the pins is executed if it is transferred (R62). -/
def acceptPhase (s : State) : Host.Outcome State Fault Refusal :=
  if s.cmdTransfer then exec s.fetched s else .next s

/-- One rising edge (R62, R230). -/
def risingEdge (s : State) : Host.Outcome State Fault Refusal :=
  if s.pins.rst then .next s.resetEdge
  else
    match acceptPhase s with
    | .next t => .next t.endEdge
    | .fault f => .fault f
    | .refused r => .refused r

/-- The response channel in the cycle before an edge with `rst` = 0, given the state `t` after the edge's command has been
accepted: with `LATENCY` = 0 the response to it is already there (R238). -/
def channelWires (t : State) : OutWires :=
  match t.presented with
  | none => ⟨t.cmdReady, false, Config.undrivenStatus t.cycle, Config.undrivenY t.cycle⟩
  | some (.ok y) => ⟨t.cmdReady, true, Response.statusCode (.ok y), y⟩
  | some (.fail f) => ⟨t.cmdReady, true, Response.statusCode (.fail f), Config.failedY t.cycle⟩

/-- The output pins in the cycle before the coming edge (R31, R62, R204, U9; log 6). While `rst` = 1 only `rsp_valid` = 0 is said. -/
def State.outputs (s : State) : OutWires :=
  if s.pins.rst then
    ⟨Config.readyInReset s.cycle, false, Config.undrivenStatus s.cycle, Config.undrivenY s.cycle⟩
  else
    match acceptPhase s with
    | .next t => { channelWires t with cmdReady := s.cmdReady }
    | .fault _ | .refused _ => channelWires s

/-- The state in which the host has taken every response the block still owed, as it can by waiting with `rsp_ready` = 1 (R238);
then `cmd_ready` = 1. -/
def State.drained (s : State) : State :=
  { s with inFlight := [], answered := s.answered ++ s.inFlight.map (·.rsp) }

/-- The pins when the host presents the low 69 bits of `w` as a command and takes no response (R60, R62). -/
def commandPins (w : Nat) : InPins where
  rst := false
  cmdValid := true
  cmdOp := (BitVec.ofNat 69 w).extractLsb' 64 5
  cmdA := (BitVec.ofNat 69 w).extractLsb' 0 64
  rspReady := false

/-- The block ready, and the command word `w` on its command channel at the coming edge (log 11). -/
def State.presentWord (s : State) (nbits w : Nat) : State :=
  { s.drained with inputs := commandPins (w % 2 ^ nbits) :: s.inputs }

end Sys2Proof.Machine
end

