-- ==== Sys2Proof/Machine/Step.lean ====
section
/-! DEFINITION. The step: one rising edge of `clk`. -/

namespace Sys2Proof.Machine

/-- One rising edge of `clk` at the pins `s.pins` (`30_encoding.md` R62, `70_reset_and_hazards.md` R230). -/
def step (s : State) : Host.Outcome State Fault Refusal :=
  risingEdge s

/-- `s` with the command word `w` presented at the coming edge, so that the next step transfers and executes it (log 11). -/
def State.withFetchWord (s : State) (nbits w : Nat) : State :=
  s.presentWord nbits w

end Sys2Proof.Machine
end

