-- ==== Sys2Proof/Machine/Respond.lean ====
section
/-! DEFINITION. The response to a command as a function of the command alone (`20_memory.md` R47), for the definitions that speak
of lists of commands and lists of responses (`30_encoding.md` R62, R81). -/

namespace Sys2Proof.Machine

/-- The response to a command, the one its meaning answers with; `OOR_MODE` is fixed for the block (R6). -/
def response (m : OorMode) (i : Instr) : Response :=
  match i with
  | .reserved00 => respReserved00
  | .w8_10 v => respW8_10 m v
  | .w8_12 v => respW8_12 m v
  | .w8_16 v => respW8_16 m v
  | .n10_8 v => respN10_8 m v
  | .reserved05 => respReserved05
  | .w10_12 v => respW10_12 m v
  | .w10_16 v => respW10_16 m v
  | .n12_8 v => respN12_8 m v
  | .n12_10 v => respN12_10 m v
  | .reserved0A => respReserved0A
  | .w12_16 v => respW12_16 m v
  | .n16_8 v => respN16_8 v
  | .n16_10 v => respN16_10 v
  | .n16_12 v => respN16_12 v
  | .reserved0F => respReserved0F
  | .reserved10 => respReserved10
  | .wb8_10 b => respWb8_10 b
  | .wb8_12 b => respWb8_12 b
  | .reserved13 => respReserved13
  | .pack r g b a => respPack r g b a
  | .packRgba32 r g b a k => respPackRgba32 r g b a k
  | .unpkRgba32 p => respUnpkRgba32 p
  | .packGray v => respPackGray v
  | .unpkR p => respUnpkR p
  | .unpkG p => respUnpkG p
  | .unpkB p => respUnpkB p
  | .unpkA p => respUnpkA p
  | .reserved1C => respReserved1C
  | .reserved1D => respReserved1D
  | .reserved1E => respReserved1E
  | .reserved1F => respReserved1F

end Sys2Proof.Machine
end

