-- ==== Sys2Proof/Machine/Sequence.lean ====
section
/-! DEFINITION. The host's operations on whole sequences and buffers, as they expand into commands of the block
(`30_encoding.md` R80 to R83, `41_buffer_conversions.md` R125 to R128). They speak of lists of commands and of responses, as R62
allows; the buffers are the host's, not state of the block (`10_state.md` R27; log 14, log 16). -/

namespace Sys2Proof.Machine

/-- A Pixel Buffer, of Packed Pixels or of single samples: an ordered sequence plus `width` and `height`, whose product nobody
compares with the length (R27, R28; log 14). -/
structure Buffer (α : Type) where
  width : Nat
  height : Nat
  elems : List α
deriving DecidableEq, Repr

/-- The outcome of a sequence form, given the responses to its commands in index order: the results, or the fault of the first
command that failed (R81, R82). -/
def collect : List Response → Except CmdFault (List Result)
  | [] => .ok []
  | .fail f :: _ => .error f
  | .ok y :: rs =>
    match collect rs with
    | .ok ys => .ok (y :: ys)
    | .error f => .error f

/-- A sequence form: one command per operand, in index order, and the outcome of their responses (R81, R82). -/
def sequenceForm {α : Type} (m : OorMode) (op : α → Instr) (xs : List α) : Except CmdFault (List Result) :=
  collect (xs.map fun x => response m (op x))

/-- `PACK_RGBA32` commands for a byte stream: a full group for each four bytes, then, where bytes are left over, one group with the
strobes of the lanes they fill (R128). -/
def rgba32Commands : List Byte → List Instr
  | r :: g :: b :: a :: rest => .packRgba32 r g b a 0b1111#4 :: rgba32Commands rest
  | [r, g, b] => [.packRgba32 r g b 0 0b0111#4]
  | [r, g] => [.packRgba32 r g 0 0 0b0011#4]
  | [r] => [.packRgba32 r 0 0 0 0b0001#4]
  | [] => []

/-- `FROM_RGBA32` (R125): `width` and `height` are copied and not compared with the length of the stream. -/
def fromRgba32 (m : OorMode) (width height : Nat) (bytes : List Byte) : Except CmdFault (Buffer Pixel) :=
  match sequenceForm m id (rgba32Commands bytes) with
  | .ok ys => .ok ⟨width, height, ys⟩
  | .error f => .error f

/-- `TO_RGBA32` (R126): the four bytes of each result in the order R, G, B, A. -/
def toRgba32 (m : OorMode) (b : Buffer Pixel) : Except CmdFault (List Byte) :=
  match sequenceForm m Instr.unpkRgba32 b.elems with
  | .ok ys => .ok (ys.flatMap bytesOf)
  | .error f => .error f

/-- `FROM_GRAYSCALE` (R127): `width` and `height` are copied. -/
def fromGrayscale (m : OorMode) (b : Buffer Sample) : Except CmdFault (Buffer Pixel) :=
  match sequenceForm m Instr.packGray b.elems with
  | .ok ys => .ok ⟨b.width, b.height, ys⟩
  | .error f => .error f

/-- The command of `widen(value, fromBits, toBits)`, at the six documented pairs and at no other (R80). -/
def widenCommand (fromBits toBits : Nat) : Option (Sample → Instr) :=
  match fromBits, toBits with
  | 8, 10 => some .w8_10
  | 8, 12 => some .w8_12
  | 8, 16 => some .w8_16
  | 10, 12 => some .w10_12
  | 10, 16 => some .w10_16
  | 12, 16 => some .w12_16
  | _, _ => none

/-- The command of `narrow(value, fromBits, toBits)`, at the six documented pairs and at no other (R80). -/
def narrowCommand (fromBits toBits : Nat) : Option (Sample → Instr) :=
  match fromBits, toBits with
  | 10, 8 => some .n10_8
  | 12, 8 => some .n12_8
  | 12, 10 => some .n12_10
  | 16, 8 => some .n16_8
  | 16, 10 => some .n16_10
  | 16, 12 => some .n16_12
  | _, _ => none

end Sys2Proof.Machine
end

