-- ==== Sys2Proof/WellFormed.lean ====
section
/-! DEFINITION. What the host owes of a command if it wants the documented result (`70_reset_and_hazards.md` R240, R243 premise P3).
The widths of the fields are in the types of `Instr`, so every `Instr` has an encoding. The block does not check that a sample is
in range (R152, R205); it answers IllegalOp to a code that is not named (R74) and InvalidInput to a group that is not
filled (R121). -/

namespace Sys2Proof

/-- The sample fits its declared source depth (R23, R152, R188). Commands without a declared depth below 16 are in range. -/
def Instr.inRange : Instr → Bool
  | .w8_10 s | .w8_12 s | .w8_16 s => decide (s.toNat < 2 ^ 8)
  | .w10_12 s | .w10_16 s | .n10_8 s => decide (s.toNat < 2 ^ 10)
  | .w12_16 s | .n12_8 s | .n12_10 s => decide (s.toNat < 2 ^ 12)
  | .n16_8 _ | .n16_10 _ | .n16_12 _ | .wb8_10 _ | .wb8_12 _ | .packGray _ => true
  | .pack _ _ _ _ | .packRgba32 _ _ _ _ _ | .unpkRgba32 _ => true
  | .unpkR _ | .unpkG _ | .unpkB _ | .unpkA _ => true
  | .reserved00 | .reserved05 | .reserved0A | .reserved0F | .reserved10 => true
  | .reserved13 | .reserved1C | .reserved1D | .reserved1E | .reserved1F => true

/-- The operation select names an operation: it is not one of the ten reserved codes (R74). -/
def Instr.named : Instr → Bool
  | .reserved00 | .reserved05 | .reserved0A | .reserved0F | .reserved10 => false
  | .reserved13 | .reserved1C | .reserved1D | .reserved1E | .reserved1F => false
  | .w8_10 _ | .w8_12 _ | .w8_16 _ | .w10_12 _ | .w10_16 _ | .w12_16 _ => true
  | .n10_8 _ | .n12_8 _ | .n12_10 _ | .n16_8 _ | .n16_10 _ | .n16_12 _ => true
  | .wb8_10 _ | .wb8_12 _ | .packGray _ => true
  | .pack _ _ _ _ | .packRgba32 _ _ _ _ _ | .unpkRgba32 _ => true
  | .unpkR _ | .unpkG _ | .unpkB _ | .unpkA _ => true

/-- An RGBA32 group is complete: all four byte lanes hold a byte of the stream (R67, R121). -/
def Instr.groupFilled : Instr → Bool
  | .packRgba32 _ _ _ _ keep => decide (keep = 0b1111#4)
  | .w8_10 _ | .w8_12 _ | .w8_16 _ | .w10_12 _ | .w10_16 _ | .w12_16 _ => true
  | .n10_8 _ | .n12_8 _ | .n12_10 _ | .n16_8 _ | .n16_10 _ | .n16_12 _ => true
  | .wb8_10 _ | .wb8_12 _ | .packGray _ | .pack _ _ _ _ | .unpkRgba32 _ => true
  | .unpkR _ | .unpkG _ | .unpkB _ | .unpkA _ => true
  | .reserved00 | .reserved05 | .reserved0A | .reserved0F | .reserved10 => true
  | .reserved13 | .reserved1C | .reserved1D | .reserved1E | .reserved1F => true

/-- A command that asks for a documented result in its documented domain, whatever `OOR_MODE` is. -/
def Instr.wellFormed (i : Instr) : Bool :=
  i.inRange && i.named && i.groupFilled

end Sys2Proof
end

