-- ==== Sys2Proof/Machine/Assembler.lean ====
section
/-! DEFINITION. The assembler's text form and its other names (`30_encoding.md` R76, R77, R80). The assembler writes ignored bits as 0
and rejects an operand that does not fit its field. What R76 leaves open about text is log 13. -/

namespace Sys2Proof.Machine

/-- A number as an `n`-bit field, rejected if it does not fit (R76). -/
def fitField (n v : Nat) : Except AsmError (BitVec n) :=
  if v < 2 ^ n then .ok (BitVec.ofNat n v) else .error .operandTooWide

/-- doc00's names for the operations (R77). -/
def otherNames : List (String × String) :=
  [("widen_8_to_10", "W8_10"), ("widen_8_to_12", "W8_12"), ("widen_8_to_16", "W8_16"),
   ("widen_10_to_12", "W10_12"), ("widen_10_to_16", "W10_16"), ("widen_12_to_16", "W12_16"),
   ("narrow_10_to_8", "N10_8"), ("narrow_12_to_8", "N12_8"), ("narrow_12_to_10", "N12_10"),
   ("narrow_16_to_8", "N16_8"), ("narrow_16_to_10", "N16_10"), ("narrow_16_to_12", "N16_12"),
   ("byteSamplesTo10", "WB8_10"), ("byteSamplesTo12", "WB8_12"), ("pack", "PACK"),
   ("unpackRed", "UNPK_R"), ("unpackGreen", "UNPK_G"), ("unpackBlue", "UNPK_B"), ("unpackAlpha", "UNPK_A"),
   ("red()", "UNPK_R"), ("green()", "UNPK_G"), ("blue()", "UNPK_B"), ("alpha()", "UNPK_A")]

/-- The mnemonic that a name stands for (R77); a mnemonic stands for itself. -/
def mnemonicOf (name : String) : String := (otherNames.lookup name).getD name

/-- The operations of format S16 (R63, R73). -/
def opsS16 : List (String × (Sample → Instr)) :=
  [("W8_10", .w8_10), ("W8_12", .w8_12), ("W8_16", .w8_16), ("W10_12", .w10_12), ("W10_16", .w10_16), ("W12_16", .w12_16),
   ("N10_8", .n10_8), ("N12_8", .n12_8), ("N12_10", .n12_10), ("N16_8", .n16_8), ("N16_10", .n16_10), ("N16_12", .n16_12),
   ("PACK_GRAY", .packGray)]

/-- The operations of format S8 (R64, R73). -/
def opsS8 : List (String × (Byte → Instr)) := [("WB8_10", .wb8_10), ("WB8_12", .wb8_12)]

/-- The operations of format PX (R66, R73). -/
def opsPX : List (String × (Pixel → Instr)) :=
  [("UNPK_RGBA32", .unpkRgba32), ("UNPK_R", .unpkR), ("UNPK_G", .unpkG), ("UNPK_B", .unpkB), ("UNPK_A", .unpkA)]

/-- A command with one operand of `n` bits (R76). -/
def oneOperand {n : Nat} (mk : BitVec n → Instr) : List Nat → Except AsmError Instr
  | [v] =>
    match fitField n v with
    | .ok x => .ok (mk x)
    | .error e => .error e
  | _ => .error .operandCount

/-- A command with four operands of `n` bits, in the order red, green, blue, alpha (R76). -/
def fourOperands {n : Nat} (mk : BitVec n → BitVec n → BitVec n → BitVec n → Instr) : List Nat → Except AsmError Instr
  | [r, g, b, a] =>
    match fitField n r, fitField n g, fitField n b, fitField n a with
    | .ok r, .ok g, .ok b, .ok a => .ok (mk r g b a)
    | _, _, _, _ => .error .operandTooWide
  | _ => .error .operandCount

/-- `widen` or `narrow` with the operands value, fromBits, toBits: refused at a pair that has no command (R80). -/
def pairOperation (command : Nat → Nat → Option (Sample → Instr)) : List Nat → Except AsmError Instr
  | [v, fromBits, toBits] =>
    match command fromBits toBits with
    | some mk => oneOperand mk [v]
    | none => .error .noSuchPair
  | _ => .error .operandCount

/-- The command of an operation without `keep` (R76). -/
def plainCommand (name : String) (operands : List Nat) : Except AsmError Instr :=
  match opsS16.lookup name, opsS8.lookup name, opsPX.lookup name with
  | some mk, _, _ => oneOperand mk operands
  | _, some mk, _ => oneOperand mk operands
  | _, _, some mk => oneOperand mk operands
  | none, none, none =>
    if name = "PACK" then fourOperands .pack operands
    else if name = "widen" then pairOperation widenCommand operands
    else if name = "narrow" then pairOperation narrowCommand operands
    else .error .unknownName

/-- The command of a `PACK_RGBA32` line; `keep` is `1111` where the line gives none (R76). -/
def groupCommand (operands : List Nat) (keep : Nat) : Except AsmError Instr :=
  match fitField 4 keep with
  | .ok k => fourOperands (fun r g b a => .packRgba32 r g b a k) operands
  | .error e => .error e

/-- The command word of a reserved code with any 64-bit operand, `.op 0xNN operand64` (R76). -/
def reservedWord : List Nat → Except AsmError CmdWord
  | [code, operand] =>
    match fitField 5 code, fitField 64 operand with
    | .ok op, .ok a => if (decodeCmd op a).named then .error .notReserved else .ok (op ++ a)
    | _, _ => .error .operandTooWide
  | _ => .error .operandCount

/-- The command of a line that is not `.op` (R76, R77, R80). -/
def lineCommand (l : AsmLine) : Except AsmError Instr :=
  if mnemonicOf l.name = "PACK_RGBA32" then groupCommand l.operands (l.keep.getD 0b1111)
  else if l.keep.isSome then .error .keepNotAllowed
  else plainCommand (mnemonicOf l.name) l.operands

/-- The command word of a line (R76). -/
def assemble (l : AsmLine) : Except AsmError CmdWord :=
  if l.name = ".op" then
    if l.keep.isSome then .error .keepNotAllowed else reservedWord l.operands
  else
    match lineCommand l with
    | .ok i => .ok (encode i)
    | .error e => .error e

/-- The sixteen hexadecimal digits in the order of their values; R76's decimal and binary digits are its first ten and first two. -/
def upperDigits : List Char := "0123456789ABCDEF".toList

/-- The same with small letters (log 13). -/
def lowerDigits : List Char := "0123456789abcdef".toList

/-- The value of a digit is its place among the digits. -/
def digitValue (c : Char) : Option Nat :=
  upperDigits.idxOf? c <|> lowerDigits.idxOf? c

/-- The number that digits of a base stand for, after those read already. -/
def readDigits (base acc : Nat) : List Char → Option Nat
  | [] => some acc
  | c :: cs =>
    match digitValue c with
    | some d => if d < base then readDigits base (acc * base + d) cs else none
    | none => none

/-- A number: decimal, or hexadecimal with `0x`, or binary with `0b` (R76). -/
def readNumber : List Char → Option Nat
  | [] => none
  | '0' :: 'x' :: c :: cs => readDigits 16 0 (c :: cs)
  | '0' :: 'b' :: c :: cs => readDigits 2 0 (c :: cs)
  | c :: cs => readDigits 10 0 (c :: cs)

/-- The words of a line, which blanks and commas separate (log 13); some may be empty. -/
def splitWords : List Char → List (List Char)
  | [] => [[]]
  | c :: cs =>
    match splitWords cs with
    | [] => [[c]]
    | w :: ws => if c = ' ' ∨ c = ',' then [] :: w :: ws else (c :: w) :: ws

/-- The operands of a line, numbers and then at most one `keep=k`. -/
def readOperands : List (List Char) → Option (List Nat × Option Nat)
  | [] => some ([], none)
  | ['k' :: 'e' :: 'e' :: 'p' :: '=' :: k] => (readNumber k).map fun n => ([], some n)
  | w :: ws =>
    match readNumber w, readOperands ws with
    | some n, some (ns, keep) => some (n :: ns, keep)
    | _, _ => none

/-- A line of text (R76). -/
def parseLine (text : List Char) : Except AsmError AsmLine :=
  match (splitWords text).filter (!·.isEmpty) with
  | [] => .error .badText
  | name :: ws =>
    match readOperands ws with
    | some (operands, keep) => .ok ⟨String.ofList name, operands, keep⟩
    | none => .error .badText

/-- The command word of a line of text (R76). -/
def assembleText (text : List Char) : Except AsmError CmdWord :=
  match parseLine text with
  | .ok l => assemble l
  | .error e => .error e

end Sys2Proof.Machine
end

