-- ==== Sys2Proof/Safety.lean ====
section
/-! DEFINITION. What claims about runs speak of (`70_reset_and_hazards.md` R241 to R243, `60_exceptions.md` R209) and the invariant
that ties the queue and the history together (`20_memory.md` R46, R47). -/

namespace Sys2Proof.Machine

/-- The responses to the commands of the run, taken or still owed, in order. -/
def State.allResponses (s : State) : List Response :=
  s.answered ++ s.inFlight.map (·.rsp)

/-- The responses answer the accepted commands one for one and in order, each being the function of its own command that R47 asks
for; what is in flight is the newest of the accepted commands, and its acceptance edges rise and lie in the past. -/
structure State.Consistent (s : State) : Prop where
  /-- Response i belongs to command i and depends on it alone (R46, R47). -/
  responses : s.allResponses = s.accepted.map (response s.oorMode)
  /-- The queue holds the accepted commands that have no response yet, in order (R30). -/
  queue : s.inFlight.map (·.cmd) = s.accepted.drop s.answered.length
  /-- At most one command was accepted at an edge, and in order (R62). -/
  order : s.inFlight.Pairwise fun d e => d.acceptedAt < e.acceptedAt
  /-- Commands were accepted at edges that are over. -/
  past : ∀ e ∈ s.inFlight, e.acceptedAt < s.cycle

/-- The run is over: the host has taken a response to every command (R241). -/
abbrev State.runOver (s : State) : Prop := s.answered.length = s.accepted.length

/-- The run is fault-free: every response taken has the status OK (R241, which speaks of all n statuses). Of a run that is not over the
rule says nothing; that such a run counts by the responses taken so far, not by those still owed, is DESIGN CHOICE (log 18). A claim about
a whole run has `State.runOver` beside it. -/
def State.faultFree (s : State) : Bool :=
  s.answered.all fun r => r.statusCode == 0b00#2

/-- Launch premise P1 (R243): the block has been reset and no command is in flight. -/
abbrev State.launched (s : State) : Prop := s.inFlight = [] ∧ s.accepted = [] ∧ s.answered = []

/-- Launch premise P3 (R243): every sample of the command sequence is in range, or else `OOR_MODE` is fixed. DESIGN CHOICE (log 17): R243
does not say to which value; the model reads it as fixed to `container16`, the mode whose results the rules give as numbers, so that a
block fixed to `opaque` meets the premise by in-range samples only. -/
abbrev samplesDocumented (m : OorMode) (cmds : List Instr) : Prop :=
  (∀ i ∈ cmds, i.inRange = true) ∨ m = .container16

/-- Launch premise P4 (R243): the commands are the stream `bytes` cut as R128 says. -/
abbrev streamCut (cmds : List Instr) (bytes : List Byte) : Prop := cmds = rgba32Commands bytes

/-- The command sequence that the host has brought to the block at the coming edges, if every one is accepted when it is presented
first and no edge resets (P2 of R243: a finite sequence). -/
def State.presentedCommands (s : State) : List Instr :=
  (s.inputs.filter (·.cmdValid)).map fun p => decodeCmd p.cmdOp p.cmdA

/-- The coming `n` edges are scheduled, none resets, and the host takes a response at each of them if there is one (R238). -/
def State.hostTakes (s : State) (n : Nat) : Bool :=
  decide (n ≤ s.inputs.length) && (s.inputs.take n).all fun p => !p.rst && p.rspReady

end Sys2Proof.Machine
end

