-- ==== Sys2Proof/Certificates/Slice0/Obligations.lean ====
section
/-! DEFINITION. The statements for the provers. The numbers in them are the spec's pseudocode on natural numbers (`00_scope.md` R9:
`shl_16(v, k)` is `v * 2^k % 2^16`, `v >> k` is `v / 2^k`), not the model's bit vector operations. -/

open Sys2Proof Sys2Proof.Machine

namespace Sys2Proof.Claims

/-- `k` rising edges. -/
abbrev run (k : Nat) (s : State) : Host.Outcome State Fault Refusal := Host.Core.run Sys2Proof.core k s

/-- Executing `i` in `s` completes: the command and its response `r` join the queue and the command joins the history, and nothing
else changes: no response taken, no pin value, no parameter, no count of edges (`10_state.md` R22: the response is the only thing an
operation produces). -/
def Completes (i : Instr) (s : State) (r : Response) : Prop :=
  ∃ t, exec i s = .next t ∧
    t.inFlight = s.inFlight ++ [⟨i, r, s.cycle⟩] ∧ t.accepted = s.accepted ++ [i] ∧
    t.answered = s.answered ∧ t.inputs = s.inputs ∧ t.oorMode = s.oorMode ∧ t.cycle = s.cycle

/-- Executing `i` in `s` completes with status OK and a result `y` whose 64 bits, read as a number, are `n`. -/
def CompletesWith (i : Instr) (s : State) (n : Nat) : Prop :=
  ∃ y : Result, Completes i s (.ok y) ∧ y.toNat = n

/-- The rule of a container conversion `op` of declared depth `S` whose formula is `f`: it decodes with the sample `a[15:0]`; it answers
`oor(op, s)` for an out-of-range sample under `OOR_MODE` = `opaque`, and the formula's value otherwise. -/
def ContainerRule (op : Op) (mk : Sample → Instr) (S : Nat) (f : Nat → Nat) : Prop :=
  (∀ a : Operand, decodeCmd op a = mk (BitVec.ofNat 16 (a.toNat % 2 ^ 16))) ∧
  ∀ (v : Sample) (s : State),
    (2 ^ S ≤ v.toNat ∧ s.oorMode = .opaqueOor → CompletesWith (mk v) s (Config.oor op v).toNat) ∧
    (¬ (2 ^ S ≤ v.toNat ∧ s.oorMode = .opaqueOor) → CompletesWith (mk v) s (f v.toNat))

/-- The rule of an operation on a 16-bit sample that is always in range, whose formula is `f`: it decodes with the sample `a[15:0]` and
answers the formula's value. -/
def TotalRule (op : Op) (mk : Sample → Instr) (f : Nat → Nat) : Prop :=
  (∀ a : Operand, decodeCmd op a = mk (BitVec.ofNat 16 (a.toNat % 2 ^ 16))) ∧
  ∀ (v : Sample) (s : State), CompletesWith (mk v) s (f v.toNat)

/-- `shl_16(v, T - S) | (v >> (2S - T))`. -/
def replicated (S T v : Nat) : Nat := (v * 2 ^ (T - S) % 2 ^ 16) ||| (v / 2 ^ (2 * S - T))

/-- `v >> (S - T)`. -/
def truncated (S T v : Nat) : Nat := v / 2 ^ (S - T)

/-- `value = (alpha<<48) + (blue<<32) + (green<<16) + red`. -/
def packed (red green blue alpha : Nat) : Nat := alpha * 2 ^ 48 + blue * 2 ^ 32 + green * 2 ^ 16 + red

/-- The lane `n` of a pixel. -/
def laneNat (n p : Nat) : Nat := p / 2 ^ (16 * n) % 2 ^ 16

/-- `(b << 8) | b` for a byte: both halves of the lane hold it. -/
def doubled (b : Nat) : Nat := b * 2 ^ 8 + b

/-- The byte at an index of a stream. -/
def byteAt (bytes : List Byte) (i : Nat) : Byte := bytes.getD i 0

/-- The ten reserved codes of R74. -/
def reservedCodes : List Nat := [0x00, 0x05, 0x0A, 0x0F, 0x10, 0x13, 0x1C, 0x1D, 0x1E, 0x1F]

/-- The ten instructions of the reserved codes. -/
def reservedInstrs : List Instr :=
  [.reserved00, .reserved05, .reserved0A, .reserved0F, .reserved10, .reserved13, .reserved1C, .reserved1D, .reserved1E, .reserved1F]

/-- The bits of `a` that the operand format of a code names (R63 to R67, R73); none for a reserved code (R74). -/
def namedBits (op : Op) : Operand :=
  if op.toNat ∈ reservedCodes then 0x0000000000000000#64
  else if op.toNat ∈ [0x11, 0x12] then 0x00000000000000FF#64
  else if op.toNat ∈ [0x14, 0x16, 0x18, 0x19, 0x1A, 0x1B] then 0xFFFFFFFFFFFFFFFF#64
  else if op.toNat = 0x15 then 0x0000000FFFFFFFFF#64
  else 0x000000000000FFFF#64

/-- The command word of a code and an operand: `{op, a}` (R60). -/
def commandWord (code operand : Nat) : CmdWord := BitVec.ofNat 69 (code * 2 ^ 64 + operand)

/-- The mnemonics of R73 with operand format S16, each with its code. -/
def codesS16 : List (String × Nat) :=
  [("W8_10", 0x01), ("W8_12", 0x02), ("W8_16", 0x03), ("N10_8", 0x04), ("W10_12", 0x06), ("W10_16", 0x07), ("N12_8", 0x08),
   ("N12_10", 0x09), ("W12_16", 0x0B), ("N16_8", 0x0C), ("N16_10", 0x0D), ("N16_12", 0x0E), ("PACK_GRAY", 0x17)]

/-- The mnemonics of R73 with operand format S8, each with its code. -/
def codesS8 : List (String × Nat) := [("WB8_10", 0x11), ("WB8_12", 0x12)]

/-- The mnemonics of R73 with operand format PX, each with its code. -/
def codesPX : List (String × Nat) :=
  [("UNPK_RGBA32", 0x16), ("UNPK_R", 0x18), ("UNPK_G", 0x19), ("UNPK_B", 0x1A), ("UNPK_A", 0x1B)]

/-- The other names of R77, each with its mnemonic. -/
def doc00Names : List (String × String) :=
  [("widen_8_to_10", "W8_10"), ("widen_8_to_12", "W8_12"), ("widen_8_to_16", "W8_16"), ("widen_10_to_12", "W10_12"),
   ("widen_10_to_16", "W10_16"), ("widen_12_to_16", "W12_16"), ("narrow_10_to_8", "N10_8"), ("narrow_12_to_8", "N12_8"),
   ("narrow_12_to_10", "N12_10"), ("narrow_16_to_8", "N16_8"), ("narrow_16_to_10", "N16_10"), ("narrow_16_to_12", "N16_12"),
   ("byteSamplesTo10", "WB8_10"), ("byteSamplesTo12", "WB8_12"), ("pack", "PACK"), ("unpackRed", "UNPK_R"),
   ("unpackGreen", "UNPK_G"), ("unpackBlue", "UNPK_B"), ("unpackAlpha", "UNPK_A"), ("red()", "UNPK_R"), ("green()", "UNPK_G"),
   ("blue()", "UNPK_B"), ("alpha()", "UNPK_A")]

/-- The six pairs of a widening and the narrowing back, with their depths. -/
def widenNarrowPairs : List (Nat × Nat × (Sample → Instr) × (Sample → Instr)) :=
  [(8, 10, .w8_10, .n10_8), (8, 12, .w8_12, .n12_8), (8, 16, .w8_16, .n16_8),
   (10, 12, .w10_12, .n12_10), (10, 16, .w10_16, .n16_10), (12, 16, .w12_16, .n16_12)]

/-- The block answers `op v` with status OK and the sample `w` in a Y16 result. -/
def Converts (m : OorMode) (i : Instr) (w : Nat) : Prop :=
  ∃ y : Result, response m i = .ok y ∧ y.toNat = w

/-- How many edges at which the host takes responses empty the queue of `s` for sure: the cycles its commands have still to wait, and
one edge for each. -/
def drainBound (s : State) : Nat :=
  (s.inFlight.map fun e => e.acceptedAt + Config.latency e.acceptedAt - s.cycle).sum + s.inFlight.length

end Sys2Proof.Claims

open Sys2Proof.Claims

/-! ### Encoding -/

/-- Every instruction, with every operand, decodes from its own command word (`30_encoding.md` sections 1, 2 and 4): as a word and as
a number. -/
def Obligations.DecodeOfEncode : Prop :=
  ∀ i : Instr, decodeWord (encode i) = i ∧ decodeNat (encode i).toNat = .ok i

/-- Encoding what a word decodes to gives the word back with its ignored bits 0, for all 2^69 words (`30_encoding.md` sections 1, 2
and 4). -/
def Obligations.EncodeOfDecode : Prop :=
  ∀ (op : Op) (a : Operand), encode (decodeWord (op ++ a)) = op ++ (a &&& namedBits op)

/-- R75: decoding is total and depends on `op` alone; `keep` does not change that the operation is `PACK_RGBA32`. -/
def Obligations.DecodingDependsOnOpAlone : Prop :=
  (∀ (op : Op) (a : Operand), encodeOp (decodeCmd op a) = op) ∧
  (∀ (op : Op) (a b : Operand), (decodeCmd op a).named = (decodeCmd op b).named) ∧
  (∀ a : Operand, ∃ r8 g8 b8 a8 keep, decodeCmd 0x15#5 a = .packRgba32 r8 g8 b8 a8 keep)

/-- Bits of `a` that the format does not name never affect what is executed (`30_encoding.md` section 2, U7). -/
def Obligations.IgnoredBitsDoNotMatter : Prop :=
  ∀ (op : Op) (a b : Operand), a &&& namedBits op = b &&& namedBits op → decodeCmd op a = decodeCmd op b

/-- R71: in group 0, `op[3:2]` is the source depth and `op[1:0]` the target depth; a smaller source widens, a larger one narrows, equal
depths are reserved. -/
def Obligations.OpcodeGroupZero : Prop :=
  ∀ (S T : Depth) (a : Operand),
    (S.bits < T.bits →
      ∃ mk, widenCommand S.bits T.bits = some mk ∧ decodeCmd (0#1 ++ S.code ++ T.code) a = mk (fieldS16 a)) ∧
    (T.bits < S.bits →
      ∃ mk, narrowCommand S.bits T.bits = some mk ∧ decodeCmd (0#1 ++ S.code ++ T.code) a = mk (fieldS16 a)) ∧
    (S = T → (decodeCmd (0#1 ++ S.code ++ T.code) a).named = false)

/-- R72: in group 1, subgroup 00 holds the byte widenings to 10 and 12, 01 the four constructors, 10 the accessors, whose shift is
16 times `op[1:0]`; the rest is reserved. -/
def Obligations.OpcodeGroupOne : Prop :=
  (∀ a : Operand,
    decodeCmd (0b100#3 ++ Depth.d10.code) a = .wb8_10 (fieldS8 a) ∧
    decodeCmd (0b100#3 ++ Depth.d12.code) a = .wb8_12 (fieldS8 a) ∧
    (decodeCmd (0b100#3 ++ Depth.d8.code) a).named = false ∧
    (decodeCmd (0b100#3 ++ Depth.d16.code) a).named = false ∧
    decodeCmd (0b101#3 ++ 0b00#2) a = .pack (fieldRed a) (fieldGreen a) (fieldBlue a) (fieldAlpha a) ∧
    decodeCmd (0b101#3 ++ 0b01#2) a = .packRgba32 (fieldR8 a) (fieldG8 a) (fieldB8 a) (fieldA8 a) (fieldKeep a) ∧
    decodeCmd (0b101#3 ++ 0b10#2) a = .unpkRgba32 (fieldPX a) ∧
    decodeCmd (0b101#3 ++ 0b11#2) a = .packGray (fieldS16 a)) ∧
  (∀ (n : BitVec 2) (p : Operand) (s : State),
    CompletesWith (decodeCmd (0b110#3 ++ n) p) s (laneNat n.toNat p.toNat)) ∧
  (∀ (n : BitVec 2) (a : Operand), (decodeCmd (0b111#3 ++ n) a).named = false)

/-- A few words of the table of test vectors decode to the commands they stand for (`95_test_vectors.md` sections 2.1 to 2.7). -/
def Obligations.SampleWordsDecode : Prop :=
  decodeNat 0x0300000000000000FF = .ok (.w8_16 0x00FF#16) ∧
  decodeNat 0x0D000000000000BEEF = .ok (.n16_10 0xBEEF#16) ∧
  decodeNat 0x12FFFFFFFFFFFFFF01 = .ok (.wb8_12 0x01#8) ∧
  decodeNat 0x1400CC00B60026009B = .ok (.pack 155#16 38#16 182#16 204#16) ∧
  decodeNat 0x150000000FCCB6269B = .ok (.packRgba32 155#8 38#8 182#8 204#8 0b1111#4) ∧
  decodeNat 0x1B00CC00B60026009B = .ok (.unpkA 0x00CC00B60026009B#64) ∧
  decodeNat 0x1FFFFFFFFFFFFFFFFF = .ok .reserved1F ∧
  decodeNat 0x200000000000000000 = .error .wordTooWide

/-! ### The results of the operations -/

/-- R153 to R158: the six widenings in the 16-bit container, for every sample and in both `OOR_MODE`s. -/
def Obligations.ContainerWideningResults : Prop :=
  ContainerRule 0x01#5 .w8_10 8 (replicated 8 10) ∧
  ContainerRule 0x02#5 .w8_12 8 (replicated 8 12) ∧
  ContainerRule 0x03#5 .w8_16 8 (replicated 8 16) ∧
  ContainerRule 0x06#5 .w10_12 10 (replicated 10 12) ∧
  ContainerRule 0x07#5 .w10_16 10 (replicated 10 16) ∧
  ContainerRule 0x0B#5 .w12_16 12 (replicated 12 16)

/-- R182 to R187: the six narrowings, for every sample and in both `OOR_MODE`s; a 16-bit sample is always in range for depth 16, so the
three narrowings from there take no notice of `OOR_MODE`. -/
def Obligations.NarrowingResults : Prop :=
  ContainerRule 0x04#5 .n10_8 10 (truncated 10 8) ∧
  ContainerRule 0x08#5 .n12_8 12 (truncated 12 8) ∧
  ContainerRule 0x09#5 .n12_10 12 (truncated 12 10) ∧
  TotalRule 0x0C#5 .n16_8 (truncated 16 8) ∧
  TotalRule 0x0D#5 .n16_10 (truncated 16 10) ∧
  TotalRule 0x0E#5 .n16_12 (truncated 16 12)

/-- R159, R160: the two byte widenings, total over all bytes, in either `OOR_MODE` and whatever `a[63:8]` holds. -/
def Obligations.ByteWideningResults : Prop :=
  (∀ a : Operand, decodeCmd 0x11#5 a = .wb8_10 (BitVec.ofNat 8 (a.toNat % 2 ^ 8)) ∧
    decodeCmd 0x12#5 a = .wb8_12 (BitVec.ofNat 8 (a.toNat % 2 ^ 8))) ∧
  ∀ (b : Byte) (s : State),
    CompletesWith (.wb8_10 b) s (replicated 8 10 b.toNat) ∧ replicated 8 10 b.toNat < 2 ^ 10 ∧
    CompletesWith (.wb8_12 b) s (replicated 8 12 b.toNat) ∧ replicated 8 12 b.toNat < 2 ^ 12

/-- R101: `PACK` places alpha in the most significant 16 bits, then blue, green, red. -/
def Obligations.PackResult : Prop :=
  (∀ a : Operand, decodeCmd 0x14#5 a =
    .pack (BitVec.ofNat 16 (laneNat 0 a.toNat)) (BitVec.ofNat 16 (laneNat 1 a.toNat))
      (BitVec.ofNat 16 (laneNat 2 a.toNat)) (BitVec.ofNat 16 (laneNat 3 a.toNat))) ∧
  ∀ (r g b a : Sample) (s : State),
    CompletesWith (.pack r g b a) s (packed r.toNat g.toNat b.toNat a.toNat)

/-- R102 to R105: an accessor shifts right by 0, 16, 32 or 48 and truncates to 16 bits. -/
def Obligations.AccessorResults : Prop :=
  ∀ (p : Pixel) (s : State),
    (decodeCmd 0x18#5 p = .unpkR p ∧ CompletesWith (.unpkR p) s (laneNat 0 p.toNat)) ∧
    (decodeCmd 0x19#5 p = .unpkG p ∧ CompletesWith (.unpkG p) s (laneNat 1 p.toNat)) ∧
    (decodeCmd 0x1A#5 p = .unpkB p ∧ CompletesWith (.unpkB p) s (laneNat 2 p.toNat)) ∧
    (decodeCmd 0x1B#5 p = .unpkA p ∧ CompletesWith (.unpkA p) s (laneNat 3 p.toNat))

/-- R121: `PACK_RGBA32` widens the four bytes of a full group by replication and packs them; every other `keep` is answered
InvalidInput, whatever the bytes. -/
def Obligations.PackRgba32Result : Prop :=
  (∀ a : Operand, decodeCmd 0x15#5 a =
    .packRgba32 (BitVec.ofNat 8 (a.toNat % 2 ^ 8)) (BitVec.ofNat 8 (a.toNat / 2 ^ 8 % 2 ^ 8))
      (BitVec.ofNat 8 (a.toNat / 2 ^ 16 % 2 ^ 8)) (BitVec.ofNat 8 (a.toNat / 2 ^ 24 % 2 ^ 8))
      (BitVec.ofNat 4 (a.toNat / 2 ^ 32 % 2 ^ 4))) ∧
  ∀ (r8 g8 b8 a8 : Byte) (keep : BitVec 4) (s : State),
    (keep = 0b1111#4 → CompletesWith (.packRgba32 r8 g8 b8 a8 keep) s
      (packed (doubled r8.toNat) (doubled g8.toNat) (doubled b8.toNat) (doubled a8.toNat))) ∧
    (keep ≠ 0b1111#4 → Completes (.packRgba32 r8 g8 b8 a8 keep) s (.fail .invalidInput))

/-- R122: `UNPK_RGBA32` gives the high byte of each lane, red in the low byte of the result, and zeros above bit 31. -/
def Obligations.UnpkRgba32Result : Prop :=
  ∀ (p : Pixel) (s : State),
    decodeCmd 0x16#5 p = .unpkRgba32 p ∧
    CompletesWith (.unpkRgba32 p) s
      (laneNat 0 p.toNat / 2 ^ 8 + laneNat 1 p.toNat / 2 ^ 8 * 2 ^ 8 +
        laneNat 2 p.toNat / 2 ^ 8 * 2 ^ 16 + laneNat 3 p.toNat / 2 ^ 8 * 2 ^ 24)

/-- R123: `PACK_GRAY` gives red = green = blue = sample and alpha = 0xFFFF. -/
def Obligations.PackGrayResult : Prop :=
  TotalRule 0x17#5 .packGray fun v => packed v v v 0xFFFF

/-- R74: the ten reserved codes, and no others, are answered IllegalOp with no result, whatever their operand: there is no hint, no
no-op and no custom space among the codes. -/
def Obligations.ReservedCodesAreIllegal : Prop :=
  (∀ i ∈ reservedInstrs, ∀ s : State, Completes i s (.fail .illegalOp)) ∧
  (∀ (op : Op) (a : Operand), decodeCmd op a ∈ reservedInstrs ↔ op.toNat ∈ reservedCodes) ∧
  (∀ (op : Op) (a : Operand) (s : State),
    op.toNat ∈ reservedCodes ↔ Completes (decodeCmd op a) s (.fail .illegalOp))

/-- The table of `60_exceptions.md` section 1: only reserved codes return IllegalOp, only `PACK_RGBA32` with `keep` other than 1111
returns InvalidInput, and every other command has a result. -/
def Obligations.WhichCommandsFail : Prop :=
  ∀ (i : Instr) (s : State),
    (Completes i s (.fail .illegalOp) ↔ i.named = false) ∧
    (Completes i s (.fail .invalidInput) ↔ i.groupFilled = false) ∧
    ((∃ y, Completes i s (.ok y)) ↔ i.named = true ∧ i.groupFilled = true)

/-- R47: the response to a command depends on the command and on nothing else, and nothing but the response comes of it: in any two
states of the same block the same word gets the same response. -/
def Obligations.ResponseDependsOnCommandAlone : Prop :=
  ∀ (op : Op) (a : Operand) (s t : State), s.oorMode = t.oorMode →
    ∃ r, Completes (decodeCmd op a) s r ∧ Completes (decodeCmd op a) t r

/-- R206: a fault is not sticky. Whatever command `i` comes first, failed or not, its response is its own and comes after those of the
commands before it; a command `j` executed at the next edge, or after any number of further edges, gets the response it gets when `i` has
not been issued, and nothing else changes. No clause says which responses the host takes at the end of the edge. -/
def Obligations.FaultsAreNotSticky : Prop :=
  ∀ (i j : Instr) (s : State), ∃ t u ri rj,
    exec i s = .next t ∧ exec j t.endEdge = .next u ∧ Completes i s ri ∧ Completes j s rj ∧
    t.endEdge.allResponses = s.allResponses ++ [ri] ∧
    (∀ (k : Nat) (v : State), run k t.endEdge = .next v → Completes j v rj) ∧
    u.allResponses = s.allResponses ++ [ri, rj] ∧ u.inFlight = t.endEdge.inFlight ++ [⟨j, rj, s.cycle + 1⟩] ∧
    u.accepted = s.accepted ++ [i, j] ∧ u.answered = t.endEdge.answered ∧ u.inputs = s.inputs.tail ∧ u.oorMode = s.oorMode ∧
    u.cycle = s.cycle + 1

/-! ### Edges, ports, reset -/

/-- The block after reset: nothing in flight, no response presented, ready, `OOR_MODE` at its default; no command issued and no
response produced (`10_state.md` section 5, `00_scope.md` section 4, `70_reset_and_hazards.md` section 1). -/
def Obligations.ResetState : Prop :=
  State.reset.inFlight = [] ∧ State.reset.rspValid = false ∧ State.reset.cmdReady = true ∧
  State.reset.oorMode = .container16 ∧ State.reset.launched

/-- An edge that transfers a command runs the command that the pins decode to: the step is `exec` of it, and then what is left of the
edge (a due response is taken if the host is ready, and the edge is over). That a command is accepted before a response is taken at the
same edge is the model's order (log 9, DEDUCED). -/
def Obligations.StepRunsTransferredCommand : Prop :=
  ∀ (s : State) (i : Instr), s.pins.rst = false → s.pins.cmdValid = true → s.cmdReady = true →
    decodeCmd s.pins.cmdOp s.pins.cmdA = i → ∃ t, exec i s = .next t ∧ step s = .next t.endEdge

/-- The word that `withFetchWord` presents is the one the next step executes (log 11: the model's way to bring a command to the block;
log 9: the model's order inside the edge). -/
def Obligations.PresentedWordIsExecuted : Prop :=
  ∀ (s : State) (nbits w : Nat) (i : Instr), decodeTableWord nbits w = some i →
    ∃ t, exec i (s.withFetchWord nbits w) = .next t ∧ step (s.withFetchWord nbits w) = .next t.endEdge

/-- An edge with `rst` = 0 at which `cmd_valid` and `cmd_ready` are not both 1 accepts no command (`30_encoding.md` section 1). -/
def Obligations.NoTransferAcceptsNothing : Prop :=
  ∀ s : State, s.pins.rst = false → ¬ (s.pins.cmdValid = true ∧ s.cmdReady = true) →
    ∃ t, step s = .next t ∧ t.accepted = s.accepted ∧ t.inFlight <:+ s.inFlight

/-- An edge with `rst` = 0 transfers a response exactly if `rsp_valid` and `rsp_ready` are both 1, and then the oldest command's
(`30_encoding.md` section 1; with latency 0 that may be the command of the same edge, log 9). -/
def Obligations.ResponseTransfer : Prop :=
  ∀ s : State, s.pins.rst = false → ∃ t u, acceptPhase s = .next t ∧ step s = .next u ∧ u.accepted = t.accepted ∧
    (s.pins.rspReady = true ∧ t.rspValid = true →
      ∃ e q, t.inFlight = e :: q ∧ u.inFlight = q ∧ u.answered = s.answered ++ [e.rsp]) ∧
    (¬ (s.pins.rspReady = true ∧ t.rspValid = true) → u.inFlight = t.inFlight ∧ u.answered = s.answered)

/-- A host that holds `rsp_ready` low delays a response and never changes it: whether it was there before the edge or is first presented
in the beat of its own command (`LATENCY` = 0), it stays presented and is not taken (`30_encoding.md` section 1, `70_reset_and_hazards.md`
section 4; `t` is the state after the edge's own command is accepted, log 9). -/
def Obligations.HeldResponseStays : Prop :=
  ∀ (s t : State) (r : Response), s.pins.rst = false → s.pins.rspReady = false → acceptPhase s = .next t → t.presented = some r →
    ∃ u, step s = .next u ∧ u.presented = some r ∧ u.answered = s.answered

/-- The output pins in a cycle with `rst` = 0 show the response that is presented once the edge's own command is accepted (with latency
0 that may be the response to it; the model's order, log 9, DEDUCED), so that the host reads exactly that response, and `rsp_valid` = 0 if
there is none (`30_encoding.md` section 1, `60_exceptions.md` section 1, `70_reset_and_hazards.md` section 4). -/
def Obligations.OutputsShowTheResponse : Prop :=
  ∀ s : State, s.pins.rst = false → ∃ t, acceptPhase s = .next t ∧
    s.outputs.cmdReady = s.cmdReady ∧ s.outputs.rspValid = t.rspValid ∧
    ∀ r, t.presented = some r →
      s.outputs.rspStatus = r.statusCode ∧ readResponse s.outputs.rspStatus s.outputs.rspY = some r

/-- R61: a response word has the status in its top two bits and the result below; the host reads the response off it whatever a failed
command's result bus carries; status 11 is no response. -/
def Obligations.ResponseWordFormat : Prop :=
  (∀ y free : Result, (responseWord (.ok y) free).toNat = y.toNat) ∧
  (∀ free : Result, (responseWord (.fail .illegalOp) free).toNat = 2 ^ 64 + free.toNat) ∧
  (∀ free : Result, (responseWord (.fail .invalidInput) free).toNat = 2 * 2 ^ 64 + free.toNat) ∧
  (∀ (r : Response) (free : Result),
    readResponse ((responseWord r free).extractLsb' 64 2) ((responseWord r free).extractLsb' 0 64) = some r) ∧
  (∀ y : Result, readResponse 0b11#2 y = none)

/-- R230: an edge with `rst` = 1 empties the queue, presents no response and accepts no command; after it the block is ready. -/
def Obligations.ResetEdgeEmptiesTheBlock : Prop :=
  ∀ s : State, s.pins.rst = true → s.outputs.rspValid = false ∧
    ∃ t, step s = .next t ∧ t.inFlight = [] ∧ t.rspValid = false ∧ t.cmdReady = true ∧ t.inputs = s.inputs.tail

/-- After an edge with `rst` = 1 a new run begins: the model's history of commands and responses is empty (log 7, from the sentence
"a reset in the middle of a run is a new run"), and `OOR_MODE` is as before. -/
def Obligations.ResetEdgeStartsNewRun : Prop :=
  ∀ s : State, s.pins.rst = true → ∃ t, step s = .next t ∧ t.launched ∧ t.oorMode = s.oorMode

/-- No edge stops the block, whatever the pins carry: a fault is a response (`60_exceptions.md` sections 1 and 2; log 2). -/
def Obligations.StepNeverStops : Prop :=
  ∀ s : State, ∃ t, step s = .next t ∧ t.oorMode = s.oorMode ∧ t.inputs = s.inputs.tail

/-- The queue and the history agree at reset. -/
def Obligations.ConsistentAtReset : Prop := State.reset.Consistent

/-- Every edge keeps the invariant that the responses taken and owed answer the accepted commands one for one, in order, each as the
function of its own command (`20_memory.md` section 4). -/
def Obligations.StepKeepsConsistent : Prop :=
  ∀ s t : State, s.Consistent → step s = .next t → t.Consistent

/-- In any run from a launched block the responses taken so far are those of the first commands, in command order, each the function
of its own command; when the run is over there is one for every command (`20_memory.md` section 5, `70_reset_and_hazards.md` section 5). -/
def Obligations.RunAnswersInCommandOrder : Prop :=
  ∀ (k : Nat) (s t : State), s.launched → run k s = .next t →
    t.answered <+: t.accepted.map (response t.oorMode) ∧
    (t.runOver → t.answered = t.accepted.map (response t.oorMode) ∧ t.inFlight = [])

/-- Every accepted command is eventually answered if the host takes responses and does not reset: after `drainBound` edges at the
latest the host has taken the responses to all commands that were in flight, in their order, whatever other commands come
(`70_reset_and_hazards.md` section 4, which says "eventually" and gives no throughput). That the bound counts one edge for each command
once its latency has passed is the model's (log 9, DEDUCED); the latencies are free (log 4). -/
def Obligations.EveryAcceptedCommandIsAnswered : Prop :=
  ∀ (s : State) (n : Nat), drainBound s ≤ n → s.hostTakes n = true →
    ∃ t, run n s = .next t ∧ s.answered ++ s.inFlight.map (·.rsp) <+: t.answered

/-! ### Laws of the conversions and of the codec -/

/-- R165: widening and then narrowing back gives the sample, for the six pairs and every in-range sample; in particular for
`n16_8` after `w8_16` on bytes. -/
def Obligations.WidenThenNarrow : Prop :=
  (∀ p ∈ widenNarrowPairs, ∀ (m : OorMode) (v : Sample), v.toNat < 2 ^ p.1 →
    ∃ y : Result, response m (p.2.2.1 v) = .ok y ∧ Converts m (p.2.2.2 (sampleOf y)) v.toNat) ∧
  (∀ b : Byte, highByte (byteTo16 b) = b)

/-- The widening formula as a sum on in-range samples (`42_remap_widen.md` section 1, "so the OR equals the sum"). -/
def Obligations.WideningSumForm : Prop :=
  ∀ p ∈ widenNarrowPairs, ∀ (m : OorMode) (v : Sample), v.toNat < 2 ^ p.1 →
    Converts m (p.2.2.1 v) (v.toNat * 2 ^ (p.2.1 - p.1) + v.toNat / 2 ^ (2 * p.1 - p.2.1))

/-- Zero widens to zero and full scale to full scale, and the same for narrowing (`42_remap_widen.md` section 4, `43_remap_narrow.md`
section 2). -/
def Obligations.EndpointsMapToEndpoints : Prop :=
  ∀ p ∈ widenNarrowPairs, ∀ m : OorMode,
    Converts m (p.2.2.1 0#16) 0 ∧ Converts m (p.2.2.1 (BitVec.ofNat 16 (2 ^ p.1 - 1))) (2 ^ p.2.1 - 1) ∧
    Converts m (p.2.2.2 0#16) 0 ∧ Converts m (p.2.2.2 (BitVec.ofNat 16 (2 ^ p.2.1 - 1))) (2 ^ p.1 - 1)

/-- Each widening is strictly increasing on in-range samples, with results in range for the target depth (`42_remap_widen.md`
section 4). -/
def Obligations.WideningIncreasesInRange : Prop :=
  ∀ p ∈ widenNarrowPairs, ∀ (m : OorMode) (v w : Sample), v.toNat < w.toNat → w.toNat < 2 ^ p.1 →
    ∃ x y, Converts m (p.2.2.1 v) x ∧ Converts m (p.2.2.1 w) y ∧ x < y ∧ y < 2 ^ p.2.1

/-- The in-range samples that a narrowing sends to `w` are the 2^(S-T) from `w * 2^(S-T)` on, and its results are in range for the
target depth: it is non-decreasing and many-to-one, and nothing rounds up (`43_remap_narrow.md` section 2). -/
def Obligations.NarrowingFibres : Prop :=
  ∀ p ∈ widenNarrowPairs, ∀ (m : OorMode) (v : Sample) (w : Nat), v.toNat < 2 ^ p.2.1 →
    (Converts m (p.2.2.2 v) w ↔ w * 2 ^ (p.2.1 - p.1) ≤ v.toNat ∧ v.toNat < (w + 1) * 2 ^ (p.2.1 - p.1)) ∧
    (Converts m (p.2.2.2 v) w → w < 2 ^ p.1)

/-- Narrowings compose (`43_remap_narrow.md` section 2, the last law but one). -/
def Obligations.NarrowingsCompose : Prop :=
  ∀ (m : OorMode) (v : Sample),
    (∃ y, response m (.n16_12 v) = .ok y ∧ response m (.n12_8 (sampleOf y)) = response m (.n16_8 v)) ∧
    (∃ y, response m (.n16_10 v) = .ok y ∧ response m (.n10_8 (sampleOf y)) = response m (.n16_8 v)) ∧
    (∃ y, response m (.n16_12 v) = .ok y ∧ response m (.n12_10 (sampleOf y)) = response m (.n16_10 v)) ∧
    (v.toNat < 2 ^ 12 →
      ∃ y, response m (.n12_10 v) = .ok y ∧ response m (.n10_8 (sampleOf y)) = response m (.n12_8 v))

/-- Widenings do not compose: the example of `42_remap_widen.md` section 4, 16 by way of depth 10 against 16 directly to 12. -/
def Obligations.WideningsDoNotCompose : Prop :=
  ∀ m : OorMode, Converts m (.w8_10 16#16) 64 ∧ Converts m (.w10_12 64#16) 256 ∧ Converts m (.w8_12 16#16) 257

/-- The byte widenings agree with the container widenings of the byte, in either `OOR_MODE` (`42_remap_widen.md` section 3: the two
families differ "only in input container width"). -/
def Obligations.ByteWideningAgrees : Prop :=
  ∀ (m : OorMode) (b : Byte),
    response m (.wb8_10 b) = response m (.w8_10 (b.setWidth 16)) ∧
    response m (.wb8_12 b) = response m (.w8_12 (b.setWidth 16))

/-- The codec is a bijection: the accessors of a packed pixel give its channels, and packing the lanes of a pixel gives the pixel
(`40_packed_pixel_codec.md` section 3). -/
def Obligations.CodecIsBijective : Prop :=
  (∀ (m : OorMode) (r g b a : Sample), ∃ p, response m (.pack r g b a) = .ok p ∧
    Converts m (.unpkR p) r.toNat ∧ Converts m (.unpkG p) g.toNat ∧
    Converts m (.unpkB p) b.toNat ∧ Converts m (.unpkA p) a.toNat) ∧
  (∀ (m : OorMode) (p : Pixel), ∃ r g b a,
    response m (.unpkR p) = .ok r ∧ response m (.unpkG p) = .ok g ∧
    response m (.unpkB p) = .ok b ∧ response m (.unpkA p) = .ok a ∧
    response m (.pack (sampleOf r) (sampleOf g) (sampleOf b) (sampleOf a)) = .ok p)

/-- Unpacking a packed RGBA32 group gives its bytes; packing an unpacked pixel gives the pixel exactly if every lane has equal high
and low bytes (`41_buffer_conversions.md` section 3, the last rule). -/
def Obligations.GroupRoundTrip : Prop :=
  (∀ (m : OorMode) (r g b a : Byte), ∃ p y, response m (.packRgba32 r g b a 0b1111#4) = .ok p ∧
    response m (.unpkRgba32 p) = .ok y ∧ bytesOf y = [r, g, b, a]) ∧
  (∀ (m : OorMode) (p : Pixel), ∃ y, response m (.unpkRgba32 p) = .ok y ∧
    (response m (.packRgba32 (fieldR8 y) (fieldG8 y) (fieldB8 y) (fieldA8 y) 0b1111#4) = .ok p ↔
      ∀ n < 4, laneNat n p.toNat / 2 ^ 8 = laneNat n p.toNat % 2 ^ 8))

/-! ### Sequences and buffers -/

/-- R81, R82: a sequence form has one result per operand in index order, none for none; if a command fails its outcome is the fault of
the first that fails; and it cannot fail for an operation other than `PACK_RGBA32`. -/
def Obligations.SequenceFormOutcome : Prop :=
  (∀ (rs : List Response) (ys : List Result), collect rs = .ok ys ↔ rs = ys.map Response.ok) ∧
  (∀ (rs : List Response) (f : CmdFault), collect rs = .error f ↔ ∃ (ys : List Result) (rest : List Response), rs = ys.map Response.ok ++ Response.fail f :: rest) ∧
  (∀ (α : Type) (m : OorMode) (op : α → Instr), sequenceForm m op [] = .ok []) ∧
  (∀ (α : Type) (m : OorMode) (op : α → Instr) (xs : List α),
    (∀ x ∈ xs, (op x).named = true ∧ (op x).groupFilled = true) →
    ∃ ys, sequenceForm m op xs = .ok ys ∧ ys.length = xs.length ∧
      ys.map Response.ok = xs.map fun x => response m (op x))

/-- R128: a stream of L bytes is cut into L / 4 full groups and, if bytes are left over, one group with the low L mod 4 strobes set and
its unfilled lanes 0. -/
def Obligations.StreamIsCutIntoGroups : Prop :=
  ∀ bytes : List Byte,
    rgba32Commands bytes =
      ((List.range (bytes.length / 4)).map fun k =>
        Instr.packRgba32 (byteAt bytes (4 * k)) (byteAt bytes (4 * k + 1)) (byteAt bytes (4 * k + 2)) (byteAt bytes (4 * k + 3))
          0b1111#4) ++
      (if bytes.length % 4 = 0 then [] else
        [Instr.packRgba32 (byteAt bytes (4 * (bytes.length / 4))) (byteAt bytes (4 * (bytes.length / 4) + 1))
          (byteAt bytes (4 * (bytes.length / 4) + 2)) 0 (BitVec.ofNat 4 (2 ^ (bytes.length % 4) - 1))])

/-- R125: `FROM_RGBA32` on a stream whose length is not a multiple of 4 is the error InvalidInput; otherwise it is the buffer of the
given width and height with one pixel per group, each byte widened by replication. -/
def Obligations.FromRgba32Outcome : Prop :=
  ∀ (m : OorMode) (width height : Nat) (bytes : List Byte),
    (bytes.length % 4 ≠ 0 → fromRgba32 m width height bytes = .error .invalidInput) ∧
    (bytes.length % 4 = 0 → ∃ px : List Pixel, fromRgba32 m width height bytes = .ok ⟨width, height, px⟩ ∧
      px.map (·.toNat) = (List.range (bytes.length / 4)).map fun k =>
        packed (doubled (byteAt bytes (4 * k)).toNat) (doubled (byteAt bytes (4 * k + 1)).toNat)
          (doubled (byteAt bytes (4 * k + 2)).toNat) (doubled (byteAt bytes (4 * k + 3)).toNat)) ∧
    (bytes = [] → rgba32Commands bytes = [])

/-- R126: `TO_RGBA32` gives the high bytes of the lanes of every pixel in the order R, G, B, A; it cannot fail and does not look at the
width and the height. -/
def Obligations.ToRgba32Outcome : Prop :=
  ∀ (m : OorMode) (buffer : Buffer Pixel), ∃ bytes : List Byte, toRgba32 m buffer = .ok bytes ∧
    bytes.length = 4 * buffer.elems.length ∧
    bytes.map (·.toNat) = buffer.elems.flatMap fun p =>
      [laneNat 0 p.toNat / 2 ^ 8, laneNat 1 p.toNat / 2 ^ 8, laneNat 2 p.toNat / 2 ^ 8, laneNat 3 p.toNat / 2 ^ 8]

/-- R127: `FROM_GRAYSCALE` gives one opaque gray pixel per sample and copies width and height; it cannot fail. -/
def Obligations.FromGrayscaleOutcome : Prop :=
  ∀ (m : OorMode) (buffer : Buffer Sample), ∃ px : List Pixel,
    fromGrayscale m buffer = .ok ⟨buffer.width, buffer.height, px⟩ ∧
    px.map (·.toNat) = buffer.elems.map fun v => packed v.toNat v.toNat v.toNat 0xFFFF

/-- The stream round trip: `toRGBA32(fromRGBA32(w,h,bytes)) == bytes` for any byte stream of length divisible by 4
(`41_buffer_conversions.md` section 5). -/
def Obligations.StreamRoundTrip : Prop :=
  ∀ (m : OorMode) (width height : Nat) (bytes : List Byte), bytes.length % 4 = 0 →
    ∃ buffer, fromRgba32 m width height bytes = .ok buffer ∧ toRgba32 m buffer = .ok bytes

/-- When the block has answered every command of a stream cut as premise P4 says, the outcome that the host collects from the
responses it has taken is that of `FROM_RGBA32` (`41_buffer_conversions.md` section 4, `70_reset_and_hazards.md` section 5). -/
def Obligations.BlockRunsFromRgba32 : Prop :=
  ∀ (s : State) (width height : Nat) (bytes : List Byte),
    s.Consistent → s.runOver → streamCut s.accepted bytes →
    (collect s.answered).map (fun px => (⟨width, height, px⟩ : Buffer Pixel)) = fromRgba32 s.oorMode width height bytes ∧
    (s.faultFree = true ↔ bytes.length % 4 = 0)

/-! ### The assembler -/

/-- The assembler puts an operand that fits into its field, ignored bits 0, and rejects one that does not, never truncating it: for
every mnemonic of the opcode map, by its code, and for `.op` with a reserved code (`30_encoding.md` sections 4 and 6). -/
def Obligations.AssemblerFitsOrRejects : Prop :=
  (∀ p ∈ codesS16, ∀ v : Nat, assemble ⟨p.1, [v], none⟩ = if v < 2 ^ 16 then .ok (commandWord p.2 v) else .error .operandTooWide) ∧
  (∀ p ∈ codesS8, ∀ v : Nat, assemble ⟨p.1, [v], none⟩ = if v < 2 ^ 8 then .ok (commandWord p.2 v) else .error .operandTooWide) ∧
  (∀ p ∈ codesPX, ∀ v : Nat, assemble ⟨p.1, [v], none⟩ = if v < 2 ^ 64 then .ok (commandWord p.2 v) else .error .operandTooWide) ∧
  (∀ r g b a : Nat, assemble ⟨"PACK", [r, g, b, a], none⟩ =
    if r < 2 ^ 16 ∧ g < 2 ^ 16 ∧ b < 2 ^ 16 ∧ a < 2 ^ 16 then
      .ok (commandWord 0x14 (a * 2 ^ 48 + b * 2 ^ 32 + g * 2 ^ 16 + r))
    else .error .operandTooWide) ∧
  (∀ (r g b a : Nat) (keep : Option Nat), assemble ⟨"PACK_RGBA32", [r, g, b, a], keep⟩ =
    if r < 2 ^ 8 ∧ g < 2 ^ 8 ∧ b < 2 ^ 8 ∧ a < 2 ^ 8 ∧ keep.getD 0b1111 < 2 ^ 4 then
      .ok (commandWord 0x15 (keep.getD 0b1111 * 2 ^ 32 + a * 2 ^ 24 + b * 2 ^ 16 + g * 2 ^ 8 + r))
    else .error .operandTooWide) ∧
  (∀ code a : Nat, code ∈ reservedCodes → assemble ⟨".op", [code, a], none⟩ =
    if a < 2 ^ 64 then .ok (commandWord code a) else .error .operandTooWide)

/-- `widen` and `narrow` are the commands of the twelve documented pairs, by their depth codes, and refused at every other pair
(`30_encoding.md` section 6). The last two clauses also say how such a line is written and that `noSuchPair` is reported even where the
value does not fit: the model's choices (log 13, DESIGN CHOICE). -/
def Obligations.ParametrisedFormsAtDocumentedPairs : Prop :=
  (∀ f t : Nat, (widenCommand f t).isSome = true ↔ f ∈ [8, 10, 12, 16] ∧ t ∈ [8, 10, 12, 16] ∧ f < t) ∧
  (∀ f t : Nat, (narrowCommand f t).isSome = true ↔ f ∈ [8, 10, 12, 16] ∧ t ∈ [8, 10, 12, 16] ∧ t < f) ∧
  (∀ (S T : Depth) (mk : Sample → Instr) (v : Sample),
    widenCommand S.bits T.bits = some mk ∨ narrowCommand S.bits T.bits = some mk →
    encodeOp (mk v) = 0#1 ++ S.code ++ T.code) ∧
  (∀ v f t : Nat, assemble ⟨"widen", [v, f, t], none⟩ =
    match widenCommand f t with
    | none => .error .noSuchPair
    | some mk => if v < 2 ^ 16 then .ok (encode (mk (BitVec.ofNat 16 v))) else .error .operandTooWide) ∧
  (∀ v f t : Nat, assemble ⟨"narrow", [v, f, t], none⟩ =
    match narrowCommand f t with
    | none => .error .noSuchPair
    | some mk => if v < 2 ^ 16 then .ok (encode (mk (BitVec.ofNat 16 v))) else .error .operandTooWide)

/-- R77: each of doc00's names assembles to what its mnemonic assembles to, with any operands. -/
def Obligations.OtherNamesAssembleAlike : Prop :=
  ∀ p ∈ doc00Names, ∀ (operands : List Nat) (keep : Option Nat),
    assemble ⟨p.1, operands, keep⟩ = assemble ⟨p.2, operands, keep⟩

/-! ### Launch premises -/

/-- Under launch premise P3 the responses to the commands of a run are those the rules give as numbers, those of `container16`, whatever
`OOR_MODE` is (`70_reset_and_hazards.md` section 5). That the premise's "or else `OOR_MODE` is fixed" means fixed to `container16` is the
model's reading (log 17, DESIGN CHOICE). -/
def Obligations.DocumentedSamplesGiveContainer16Responses : Prop :=
  ∀ (m : OorMode) (cmds : List Instr), samplesDocumented m cmds → cmds.map (response m) = cmds.map (response .container16)
end

