-- ==== Sys2Proof/Laws/Arith.lean ====
section
/-! SUPPORT. The value, as a natural number, of each operand field, each result format and each arithmetic operation
(`00_scope.md` R9), and the fields of the operand words that the encoder lays out. -/

namespace Sys2Proof.Machine

/-- A concatenation as a number. -/
theorem toNat_append_eq {m n : Nat} (x : BitVec m) (y : BitVec n) : (x ++ y).toNat = x.toNat * 2 ^ n + y.toNat := by
  rw [BitVec.toNat_append, ← Nat.shiftLeft_add_eq_or_of_lt y.isLt, Nat.shiftLeft_eq]

/-- A slice as a number. -/
theorem toNat_slice {n : Nat} (x : BitVec n) (lo len : Nat) : (x.extractLsb' lo len).toNat = x.toNat / 2 ^ lo % 2 ^ len := by
  rw [BitVec.extractLsb'_toNat, Nat.shiftRight_eq_div_pow]

/-! ### Operand formats -/

theorem fieldS16_toNat (a : Operand) : (fieldS16 a).toNat = a.toNat % 2 ^ 16 := by simp [fieldS16]
theorem fieldS8_toNat (a : Operand) : (fieldS8 a).toNat = a.toNat % 2 ^ 8 := by simp [fieldS8]
theorem fieldRed_toNat (a : Operand) : (fieldRed a).toNat = a.toNat % 2 ^ 16 := by simp [fieldRed]
theorem fieldGreen_toNat (a : Operand) : (fieldGreen a).toNat = a.toNat / 2 ^ 16 % 2 ^ 16 := toNat_slice _ _ _
theorem fieldBlue_toNat (a : Operand) : (fieldBlue a).toNat = a.toNat / 2 ^ 32 % 2 ^ 16 := toNat_slice _ _ _
theorem fieldAlpha_toNat (a : Operand) : (fieldAlpha a).toNat = a.toNat / 2 ^ 48 % 2 ^ 16 := toNat_slice _ _ _
theorem fieldR8_toNat (a : Operand) : (fieldR8 a).toNat = a.toNat % 2 ^ 8 := by simp [fieldR8]
theorem fieldG8_toNat (a : Operand) : (fieldG8 a).toNat = a.toNat / 2 ^ 8 % 2 ^ 8 := toNat_slice _ _ _
theorem fieldB8_toNat (a : Operand) : (fieldB8 a).toNat = a.toNat / 2 ^ 16 % 2 ^ 8 := toNat_slice _ _ _
theorem fieldA8_toNat (a : Operand) : (fieldA8 a).toNat = a.toNat / 2 ^ 24 % 2 ^ 8 := toNat_slice _ _ _
theorem fieldKeep_toNat (a : Operand) : (fieldKeep a).toNat = a.toNat / 2 ^ 32 % 2 ^ 4 := toNat_slice _ _ _

theorem layS16_toNat (s : Sample) : (layS16 s).toNat = s.toNat := by simp only [layS16, toNat_append_eq, BitVec.toNat_ofNat]; omega
theorem layS8_toNat (b : Byte) : (layS8 b).toNat = b.toNat := by simp only [layS8, toNat_append_eq, BitVec.toNat_ofNat]; omega
theorem layQ16_toNat (r g b a : Sample) :
    (layQ16 r g b a).toNat = a.toNat * 2 ^ 48 + b.toNat * 2 ^ 32 + g.toNat * 2 ^ 16 + r.toNat := by
  simp only [layQ16, toNat_append_eq]; omega
theorem layB4K_toNat (r g b a : Byte) (k : BitVec 4) :
    (layB4K r g b a k).toNat = k.toNat * 2 ^ 32 + a.toNat * 2 ^ 24 + b.toNat * 2 ^ 16 + g.toNat * 2 ^ 8 + r.toNat := by
  simp only [layB4K, toNat_append_eq, BitVec.toNat_ofNat]; omega

theorem fieldS16_layS16 (s : Sample) : fieldS16 (layS16 s) = s :=
  BitVec.eq_of_toNat_eq (by rw [fieldS16_toNat, layS16_toNat]; exact Nat.mod_eq_of_lt s.isLt)
theorem fieldS8_layS8 (b : Byte) : fieldS8 (layS8 b) = b :=
  BitVec.eq_of_toNat_eq (by rw [fieldS8_toNat, layS8_toNat]; exact Nat.mod_eq_of_lt b.isLt)
theorem fieldRed_layQ16 (r g b a : Sample) : fieldRed (layQ16 r g b a) = r :=
  BitVec.eq_of_toNat_eq (by rw [fieldRed_toNat, layQ16_toNat]; omega)
theorem fieldGreen_layQ16 (r g b a : Sample) : fieldGreen (layQ16 r g b a) = g :=
  BitVec.eq_of_toNat_eq (by rw [fieldGreen_toNat, layQ16_toNat]; omega)
theorem fieldBlue_layQ16 (r g b a : Sample) : fieldBlue (layQ16 r g b a) = b :=
  BitVec.eq_of_toNat_eq (by rw [fieldBlue_toNat, layQ16_toNat]; omega)
theorem fieldAlpha_layQ16 (r g b a : Sample) : fieldAlpha (layQ16 r g b a) = a :=
  BitVec.eq_of_toNat_eq (by rw [fieldAlpha_toNat, layQ16_toNat]; omega)
theorem fieldR8_layB4K (r g b a : Byte) (k : BitVec 4) : fieldR8 (layB4K r g b a k) = r :=
  BitVec.eq_of_toNat_eq (by rw [fieldR8_toNat, layB4K_toNat]; omega)
theorem fieldG8_layB4K (r g b a : Byte) (k : BitVec 4) : fieldG8 (layB4K r g b a k) = g :=
  BitVec.eq_of_toNat_eq (by rw [fieldG8_toNat, layB4K_toNat]; omega)
theorem fieldB8_layB4K (r g b a : Byte) (k : BitVec 4) : fieldB8 (layB4K r g b a k) = b :=
  BitVec.eq_of_toNat_eq (by rw [fieldB8_toNat, layB4K_toNat]; omega)
theorem fieldA8_layB4K (r g b a : Byte) (k : BitVec 4) : fieldA8 (layB4K r g b a k) = a :=
  BitVec.eq_of_toNat_eq (by rw [fieldA8_toNat, layB4K_toNat]; omega)
theorem fieldKeep_layB4K (r g b a : Byte) (k : BitVec 4) : fieldKeep (layB4K r g b a k) = k :=
  BitVec.eq_of_toNat_eq (by rw [fieldKeep_toNat, layB4K_toNat]; omega)

/-- The operation select and the operand of a command word are its two parts (R60). -/
theorem decodeWord_append (op : Op) (a : Operand) : decodeWord (op ++ a) = decodeCmd op a := by
  have h1 : (op ++ a : CmdWord).extractLsb' 64 5 = op :=
    BitVec.eq_of_toNat_eq (by rw [toNat_slice, toNat_append_eq]; omega)
  have h2 : (op ++ a : CmdWord).extractLsb' 0 64 = a :=
    BitVec.eq_of_toNat_eq (by rw [toNat_slice, toNat_append_eq]; omega)
  unfold decodeWord
  rw [h1, h2]

/-! ### Result formats -/

theorem resultY16_toNat (v : Sample) : (resultY16 v).toNat = v.toNat := by
  have := v.isLt
  simp only [resultY16, BitVec.toNat_setWidth]
  omega
theorem resultY4B_toNat (r g b a : Byte) :
    (resultY4B r g b a).toNat = a.toNat * 2 ^ 24 + b.toNat * 2 ^ 16 + g.toNat * 2 ^ 8 + r.toNat := by
  simp only [resultY4B, BitVec.toNat_setWidth, toNat_append_eq]
  omega
theorem sampleOf_resultY16 (v : Sample) : sampleOf (resultY16 v) = v :=
  BitVec.eq_of_toNat_eq (by rw [sampleOf, toNat_slice, resultY16_toNat]; omega)
theorem bytesOf_resultY4B (r g b a : Byte) : bytesOf (resultY4B r g b a) = [r, g, b, a] := by
  have h (x : Byte) (k : Nat) (hx : (resultY4B r g b a).toNat / 2 ^ k % 2 ^ 8 = x.toNat) :
      (resultY4B r g b a).extractLsb' k 8 = x := BitVec.eq_of_toNat_eq (by rw [toNat_slice, hx])
  rw [resultY4B_toNat] at h
  simp only [bytesOf]
  rw [h r 0 (by omega), h g 8 (by omega), h b 16 (by omega), h a 24 (by omega)]

/-! ### Arithmetic -/

/-- R150 on numbers. -/
theorem widen_toNat (S T : Depth) (v : Sample) :
    (widen S T v).toNat = (v.toNat * 2 ^ (T.bits - S.bits) % 2 ^ 16) ||| (v.toNat / 2 ^ (2 * S.bits - T.bits)) := by
  simp [widen, shl16, Nat.shiftLeft_eq, Nat.shiftRight_eq_div_pow]

/-- R180 on numbers. -/
theorem narrow_toNat (S T : Depth) (v : Sample) : (narrow S T v).toNat = v.toNat / 2 ^ (S.bits - T.bits) := by
  simp [narrow, Nat.shiftRight_eq_div_pow]

/-- Under `OOR_MODE` = `opaque` an out-of-range sample gets `oor` (R152). -/
theorem convert_oor {m : OorMode} {S : Depth} {s : Sample} (op : Op) (v : Sample) (h : 2 ^ S.bits ≤ s.toNat ∧ m = .opaqueOor) :
    convert m op S s v = Config.oor op s := if_pos h

/-- Otherwise the formula decides (R152). -/
theorem convert_formula {m : OorMode} {S : Depth} {s : Sample} (op : Op) (v : Sample)
    (h : ¬ (2 ^ S.bits ≤ s.toNat ∧ m = .opaqueOor)) : convert m op S s v = v := if_neg h

/-- R120 on numbers. -/
theorem byteTo16_toNat (b : Byte) : (byteTo16 b).toNat = b.toNat * 2 ^ 8 + b.toNat := by
  have hb := b.isLt
  have h : (byteTo16 b).toNat = b.toNat <<< 8 ||| b.toNat := by
    simp only [byteTo16, shl16, BitVec.toNat_or, BitVec.toNat_shiftLeft, BitVec.toNat_setWidth, Nat.shiftLeft_eq]
    congr 1 <;> omega
  rw [h, ← Nat.shiftLeft_add_eq_or_of_lt hb, Nat.shiftLeft_eq]

/-- R120 on numbers. -/
theorem highByte_toNat (c : Sample) : (highByte c).toNat = c.toNat / 2 ^ 8 := by
  have := c.isLt
  simp only [highByte, BitVec.toNat_setWidth, BitVec.toNat_ushiftRight, Nat.shiftRight_eq_div_pow]
  omega

/-- R101 on numbers: no carry, no overflow. -/
theorem packPixel_toNat (r g b a : Sample) :
    (packPixel r g b a).toNat = a.toNat * 2 ^ 48 + b.toNat * 2 ^ 32 + g.toNat * 2 ^ 16 + r.toNat := by
  simp only [packPixel, BitVec.toNat_add, BitVec.toNat_shiftLeft, BitVec.toNat_setWidth, Nat.shiftLeft_eq]
  omega

/-- R106 on numbers. -/
theorem lane_toNat (n : Nat) (p : Pixel) : (lane n p).toNat = p.toNat / 2 ^ (16 * n) % 2 ^ 16 := by
  simp [lane, Nat.shiftRight_eq_div_pow]

end Sys2Proof.Machine
end

