-- ==== Sys2Proof/Laws/State.lean ====
section
/-! SUPPORT. One lemma per field for each update of the state. -/

namespace Sys2Proof.Machine

@[simp] theorem State.accept_oorMode (s : State) (i : Instr) (r : Response) : (s.accept i r).oorMode = s.oorMode := rfl
@[simp] theorem State.accept_inputs (s : State) (i : Instr) (r : Response) : (s.accept i r).inputs = s.inputs := rfl
@[simp] theorem State.accept_inFlight (s : State) (i : Instr) (r : Response) :
    (s.accept i r).inFlight = s.inFlight ++ [⟨i, r, s.cycle⟩] := rfl
@[simp] theorem State.accept_accepted (s : State) (i : Instr) (r : Response) :
    (s.accept i r).accepted = s.accepted ++ [i] := rfl
@[simp] theorem State.accept_answered (s : State) (i : Instr) (r : Response) : (s.accept i r).answered = s.answered := rfl
@[simp] theorem State.accept_cycle (s : State) (i : Instr) (r : Response) : (s.accept i r).cycle = s.cycle := rfl
@[simp] theorem State.accept_pins (s : State) (i : Instr) (r : Response) : (s.accept i r).pins = s.pins := rfl

@[simp] theorem State.tick_oorMode (s : State) : s.tick.oorMode = s.oorMode := rfl
@[simp] theorem State.tick_inputs (s : State) : s.tick.inputs = s.inputs.tail := rfl
@[simp] theorem State.tick_inFlight (s : State) : s.tick.inFlight = s.inFlight := rfl
@[simp] theorem State.tick_accepted (s : State) : s.tick.accepted = s.accepted := rfl
@[simp] theorem State.tick_answered (s : State) : s.tick.answered = s.answered := rfl
@[simp] theorem State.tick_cycle (s : State) : s.tick.cycle = s.cycle + 1 := rfl

@[simp] theorem State.resetEdge_oorMode (s : State) : s.resetEdge.oorMode = s.oorMode := rfl
@[simp] theorem State.resetEdge_inputs (s : State) : s.resetEdge.inputs = s.inputs.tail := rfl
@[simp] theorem State.resetEdge_inFlight (s : State) : s.resetEdge.inFlight = [] := rfl
@[simp] theorem State.resetEdge_accepted (s : State) : s.resetEdge.accepted = [] := rfl
@[simp] theorem State.resetEdge_answered (s : State) : s.resetEdge.answered = [] := rfl
@[simp] theorem State.resetEdge_cycle (s : State) : s.resetEdge.cycle = s.cycle + 1 := rfl

@[simp] theorem State.drained_oorMode (s : State) : s.drained.oorMode = s.oorMode := rfl
@[simp] theorem State.drained_inputs (s : State) : s.drained.inputs = s.inputs := rfl
@[simp] theorem State.drained_inFlight (s : State) : s.drained.inFlight = [] := rfl
@[simp] theorem State.drained_accepted (s : State) : s.drained.accepted = s.accepted := rfl
@[simp] theorem State.drained_answered (s : State) : s.drained.answered = s.answered ++ s.inFlight.map (·.rsp) := rfl
@[simp] theorem State.drained_cycle (s : State) : s.drained.cycle = s.cycle := rfl

@[simp] theorem State.presentWord_oorMode (s : State) (n w : Nat) : (s.presentWord n w).oorMode = s.oorMode := rfl
@[simp] theorem State.presentWord_pins (s : State) (n w : Nat) : (s.presentWord n w).pins = commandPins (w % 2 ^ n) := rfl
@[simp] theorem State.presentWord_inFlight (s : State) (n w : Nat) : (s.presentWord n w).inFlight = [] := rfl
@[simp] theorem State.presentWord_accepted (s : State) (n w : Nat) : (s.presentWord n w).accepted = s.accepted := rfl
@[simp] theorem State.presentWord_cycle (s : State) (n w : Nat) : (s.presentWord n w).cycle = s.cycle := rfl

@[simp] theorem State.reset_inFlight : State.reset.inFlight = [] := rfl
@[simp] theorem State.reset_accepted : State.reset.accepted = [] := rfl
@[simp] theorem State.reset_answered : State.reset.answered = [] := rfl
@[simp] theorem State.reset_oorMode : State.reset.oorMode = .container16 := rfl

end Sys2Proof.Machine
end

