-- ==== Sys2Proof/Laws/Ops.lean ====
section
/-! SUPPORT. For each shared operation, once, everything it can do. -/

namespace Sys2Proof.Machine

/-- Answering a command always goes on, with the command and its response at the end of the queue. -/
@[simp] theorem State.answer_eq (s : State) (i : Instr) (r : Response) : s.answer i r = .next (s.accept i r) := rfl

/-- Whatever the command, executing it comes to answering it with its response. -/
theorem exec_eq_accept (i : Instr) (s : State) : exec i s = .next (s.accept i (response s.oorMode i)) := by
  cases i <;> rfl

/-- A response is presented exactly when the oldest command in flight is due. -/
theorem State.presented_eq_some (s : State) (r : Response) :
    s.presented = some r ↔ ∃ e q, s.inFlight = e :: q ∧ s.due e = true ∧ e.rsp = r := by
  unfold State.presented
  cases h : s.inFlight with
  | nil => simp
  | cons e q => by_cases hd : s.due e = true <;> simp [hd]

/-- What the transfer of a response can do: nothing, or the host takes the response of the oldest command, which is due. -/
theorem State.deliver_cases (s : State) :
    s.deliver = s ∧ ¬ (s.pins.rspReady = true ∧ s.rspValid = true) ∨
    ∃ e q, s.pins.rspReady = true ∧ s.inFlight = e :: q ∧ s.due e = true ∧
      s.deliver = { s with inFlight := q, answered := s.answered ++ [e.rsp] } := by
  by_cases hr : s.pins.rspReady = true
  · cases hp : s.presented with
    | none => exact .inl ⟨by simp [State.deliver, hr, hp], by simp [State.rspValid, hp]⟩
    | some r =>
      obtain ⟨e, q, hq, hd, rfl⟩ := (s.presented_eq_some r).1 hp
      exact .inr ⟨e, q, hr, hq, hd, by simp [State.deliver, hr, hp, hq]⟩
  · exact .inl ⟨by simp [State.deliver, hr], by simp [hr]⟩

@[simp] theorem State.deliver_oorMode (s : State) : s.deliver.oorMode = s.oorMode := by
  obtain ⟨h, -⟩ | ⟨_, _, -, -, -, h⟩ := s.deliver_cases <;> rw [h]
@[simp] theorem State.deliver_inputs (s : State) : s.deliver.inputs = s.inputs := by
  obtain ⟨h, -⟩ | ⟨_, _, -, -, -, h⟩ := s.deliver_cases <;> rw [h]
@[simp] theorem State.deliver_accepted (s : State) : s.deliver.accepted = s.accepted := by
  obtain ⟨h, -⟩ | ⟨_, _, -, -, -, h⟩ := s.deliver_cases <;> rw [h]
@[simp] theorem State.deliver_cycle (s : State) : s.deliver.cycle = s.cycle := by
  obtain ⟨h, -⟩ | ⟨_, _, -, -, -, h⟩ := s.deliver_cases <;> rw [h]

/-- The transfer of a response moves it from the responses owed to the responses taken: together they are the same, in the same order. -/
theorem State.deliver_responses (s : State) :
    s.deliver.answered ++ s.deliver.inFlight.map (·.rsp) = s.answered ++ s.inFlight.map (·.rsp) := by
  obtain ⟨h, -⟩ | ⟨_, _, -, hq, -, h⟩ := s.deliver_cases <;> rw [h]
  simp [hq]

@[simp] theorem State.endEdge_oorMode (s : State) : s.endEdge.oorMode = s.oorMode := s.deliver_oorMode
@[simp] theorem State.endEdge_inputs (s : State) : s.endEdge.inputs = s.inputs.tail := congrArg List.tail s.deliver_inputs
@[simp] theorem State.endEdge_inFlight (s : State) : s.endEdge.inFlight = s.deliver.inFlight := rfl
@[simp] theorem State.endEdge_accepted (s : State) : s.endEdge.accepted = s.accepted := s.deliver_accepted
@[simp] theorem State.endEdge_answered (s : State) : s.endEdge.answered = s.deliver.answered := rfl
@[simp] theorem State.endEdge_cycle (s : State) : s.endEdge.cycle = s.cycle + 1 := congrArg (· + 1) s.deliver_cycle

/-- The state in which an edge with `rst` = 0 is left for its response transfer: the command on the pins accepted, if it is transferred. -/
def State.afterAccept (s : State) : State :=
  if s.cmdTransfer then s.accept s.fetched (response s.oorMode s.fetched) else s

@[simp] theorem State.afterAccept_oorMode (s : State) : s.afterAccept.oorMode = s.oorMode := by
  unfold State.afterAccept; split <;> rfl
@[simp] theorem State.afterAccept_inputs (s : State) : s.afterAccept.inputs = s.inputs := by
  unfold State.afterAccept; split <;> rfl
@[simp] theorem State.afterAccept_pins (s : State) : s.afterAccept.pins = s.pins := by
  unfold State.afterAccept; split <;> rfl
@[simp] theorem State.afterAccept_answered (s : State) : s.afterAccept.answered = s.answered := by
  unfold State.afterAccept; split <;> rfl
@[simp] theorem State.afterAccept_cycle (s : State) : s.afterAccept.cycle = s.cycle := by
  unfold State.afterAccept; split <;> rfl

/-- Accepting a command leaves the oldest command in flight where it is. -/
theorem State.afterAccept_inFlight_cons (s : State) (e : InFlight) (q : List InFlight) (h : s.inFlight = e :: q) :
    ∃ q', s.afterAccept.inFlight = e :: q' := by
  unfold State.afterAccept; split <;> simp [h]

/-- The first part of an edge always goes on. -/
theorem acceptPhase_eq (s : State) : acceptPhase s = .next s.afterAccept := by
  unfold acceptPhase State.afterAccept
  split
  · exact exec_eq_accept _ _
  · rfl

/-- What a step can do, once for all: a reset edge, or an edge that accepts a command or not, lets a response be taken or not, and is
over. -/
theorem step_eq (s : State) : step s = .next (if s.pins.rst then s.resetEdge else s.afterAccept.endEdge) := by
  unfold step risingEdge
  rw [acceptPhase_eq]
  split <;> rfl

/-- The state after one edge. -/
def State.afterEdge (s : State) : State := if s.pins.rst then s.resetEdge else s.afterAccept.endEdge

theorem State.afterEdge_of_rst {s : State} (h : s.pins.rst = true) : s.afterEdge = s.resetEdge := if_pos h

theorem State.afterEdge_of_not_rst {s : State} (h : s.pins.rst = false) : s.afterEdge = s.afterAccept.endEdge :=
  if_neg (by simp [h])

theorem step_eq_afterEdge (s : State) : step s = .next s.afterEdge := step_eq s

@[simp] theorem State.afterEdge_oorMode (s : State) : s.afterEdge.oorMode = s.oorMode := by
  unfold State.afterEdge; split <;> simp
@[simp] theorem State.afterEdge_inputs (s : State) : s.afterEdge.inputs = s.inputs.tail := by
  unfold State.afterEdge; split <;> simp
@[simp] theorem State.afterEdge_cycle (s : State) : s.afterEdge.cycle = s.cycle + 1 := by
  unfold State.afterEdge; split <;> simp

/-- One more edge at the beginning of a run. -/
theorem run_succ (k : Nat) (s : State) :
    Host.Core.run Sys2Proof.core (k + 1) s = Host.Core.run Sys2Proof.core k s.afterEdge := by
  have h : Sys2Proof.core.step s = .next s.afterEdge := step_eq s
  simp only [Host.Core.run]
  rw [h]

end Sys2Proof.Machine
end

