-- ==== Sys2Proof/Laws/PerInstr.lean ====
section
/-! SUPPORT. Facts about each instruction as syntax. -/

namespace Sys2Proof.Laws

/-- No bit of the operand changes which operation a code selects (`30_encoding.md` R75): decoding the instruction's code beside any
operand gives an instruction of the same code. -/
def OpField.Statement (i : Instr) : Prop :=
  ∀ a : Operand, encodeOp (decodeCmd (encodeOp i) a) = encodeOp i

theorem OpField.reserved00 : OpField.Statement .reserved00 := fun _ => rfl
theorem OpField.w8_10 (v : Sample) : OpField.Statement (.w8_10 v) := fun _ => rfl
theorem OpField.w8_12 (v : Sample) : OpField.Statement (.w8_12 v) := fun _ => rfl
theorem OpField.w8_16 (v : Sample) : OpField.Statement (.w8_16 v) := fun _ => rfl
theorem OpField.n10_8 (v : Sample) : OpField.Statement (.n10_8 v) := fun _ => rfl
theorem OpField.reserved05 : OpField.Statement .reserved05 := fun _ => rfl
theorem OpField.w10_12 (v : Sample) : OpField.Statement (.w10_12 v) := fun _ => rfl
theorem OpField.w10_16 (v : Sample) : OpField.Statement (.w10_16 v) := fun _ => rfl
theorem OpField.n12_8 (v : Sample) : OpField.Statement (.n12_8 v) := fun _ => rfl
theorem OpField.n12_10 (v : Sample) : OpField.Statement (.n12_10 v) := fun _ => rfl
theorem OpField.reserved0A : OpField.Statement .reserved0A := fun _ => rfl
theorem OpField.w12_16 (v : Sample) : OpField.Statement (.w12_16 v) := fun _ => rfl
theorem OpField.n16_8 (v : Sample) : OpField.Statement (.n16_8 v) := fun _ => rfl
theorem OpField.n16_10 (v : Sample) : OpField.Statement (.n16_10 v) := fun _ => rfl
theorem OpField.n16_12 (v : Sample) : OpField.Statement (.n16_12 v) := fun _ => rfl
theorem OpField.reserved0F : OpField.Statement .reserved0F := fun _ => rfl
theorem OpField.reserved10 : OpField.Statement .reserved10 := fun _ => rfl
theorem OpField.wb8_10 (b : Byte) : OpField.Statement (.wb8_10 b) := fun _ => rfl
theorem OpField.wb8_12 (b : Byte) : OpField.Statement (.wb8_12 b) := fun _ => rfl
theorem OpField.reserved13 : OpField.Statement .reserved13 := fun _ => rfl
theorem OpField.pack (r g b a : Sample) : OpField.Statement (.pack r g b a) := fun _ => rfl
theorem OpField.packRgba32 (r g b a : Byte) (k : BitVec 4) : OpField.Statement (.packRgba32 r g b a k) := fun _ => rfl
theorem OpField.unpkRgba32 (p : Pixel) : OpField.Statement (.unpkRgba32 p) := fun _ => rfl
theorem OpField.packGray (v : Sample) : OpField.Statement (.packGray v) := fun _ => rfl
theorem OpField.unpkR (p : Pixel) : OpField.Statement (.unpkR p) := fun _ => rfl
theorem OpField.unpkG (p : Pixel) : OpField.Statement (.unpkG p) := fun _ => rfl
theorem OpField.unpkB (p : Pixel) : OpField.Statement (.unpkB p) := fun _ => rfl
theorem OpField.unpkA (p : Pixel) : OpField.Statement (.unpkA p) := fun _ => rfl
theorem OpField.reserved1C : OpField.Statement .reserved1C := fun _ => rfl
theorem OpField.reserved1D : OpField.Statement .reserved1D := fun _ => rfl
theorem OpField.reserved1E : OpField.Statement .reserved1E := fun _ => rfl
theorem OpField.reserved1F : OpField.Statement .reserved1F := fun _ => rfl

end Sys2Proof.Laws
end

