-- ==== Sys2Proof/Tests/Slice0.lean ====
section
/-! SUPPORT. Tests, each on values that `95_test_vectors.md` or a rule of the spec gives, and for each statement that has hypotheses a
state and operands that meet them (`witness_<statement>`). -/

namespace Sys2Proof.Tests

open Sys2Proof.Machine Sys2Proof.Claims

/-- The responses in flight after one step from reset with the word `w` presented: the response to the word, if the step accepted it. -/
def firstAnswer (w : Nat) : Option Response :=
  match step (State.reset.withFetchWord 72 w) with
  | .next t => t.inFlight.head?.map (·.rsp)
  | .fault _ => none
  | .refused _ => none

/-! ### Each code: its decoding and its results (`95_test_vectors.md` sections 2.1 to 2.7, `OOR_MODE` = `container16`) -/

theorem test_decode_reserved00 : decodeNat 0x0000000000000000FF = .ok (.reserved00) := by decide
theorem test_result_reserved00 :
    [0x0000000000000000FF].map firstAnswer =
      [some (.fail .illegalOp)] := by decide
theorem test_decode_w8_10 : decodeNat 0x010000000000000040 = .ok (.w8_10 0x40#16) := by decide
theorem test_result_w8_10 :
    [0x010000000000000040, 0x0100000000000000FF, 0x010000000000000100].map firstAnswer =
      [some (.ok 0x101#64), some (.ok 0x3FF#64), some (.ok 0x404#64)] := by decide
theorem test_decode_w8_12 : decodeNat 0x02000000000000009B = .ok (.w8_12 0x9B#16) := by decide
theorem test_result_w8_12 :
    [0x02000000000000009B, 0x0200000000000000FF, 0x0200000000000001FF].map firstAnswer =
      [some (.ok 0x9B9#64), some (.ok 0xFFF#64), some (.ok 0x1FFF#64)] := by decide
theorem test_decode_w8_16 : decodeNat 0x03DEADBEEF000000FF = .ok (.w8_16 0xFF#16) := by decide
theorem test_result_w8_16 :
    [0x03DEADBEEF000000FF, 0x030000000000000001, 0x030000000000001234].map firstAnswer =
      [some (.ok 0xFFFF#64), some (.ok 0x101#64), some (.ok 0x3634#64)] := by decide
theorem test_decode_n10_8 : decodeNat 0x0400000000000003A7 = .ok (.n10_8 0x3A7#16) := by decide
theorem test_result_n10_8 :
    [0x0400000000000003A7, 0x040000000000000003, 0x04000000000000FFFF].map firstAnswer =
      [some (.ok 0xE9#64), some (.ok 0#64), some (.ok 0x3FFF#64)] := by decide
theorem test_decode_reserved05 : decodeNat 0x0500000000000000FF = .ok (.reserved05) := by decide
theorem test_result_reserved05 :
    [0x0500000000000000FF].map firstAnswer =
      [some (.fail .illegalOp)] := by decide
theorem test_decode_w10_12 : decodeNat 0x0600000000000002A5 = .ok (.w10_12 0x2A5#16) := by decide
theorem test_result_w10_12 :
    [0x0600000000000002A5, 0x0600000000000003FF, 0x060000000000000400].map firstAnswer =
      [some (.ok 0xA96#64), some (.ok 0xFFF#64), some (.ok 0x1004#64)] := by decide
theorem test_decode_w10_16 : decodeNat 0x0700000000000002A5 = .ok (.w10_16 0x2A5#16) := by decide
theorem test_result_w10_16 :
    [0x0700000000000002A5, 0x0700000000000003FF, 0x070000000000000400].map firstAnswer =
      [some (.ok 0xA96A#64), some (.ok 0xFFFF#64), some (.ok 0x40#64)] := by decide
theorem test_decode_n12_8 : decodeNat 0x080000000000000BEE = .ok (.n12_8 0xBEE#16) := by decide
theorem test_result_n12_8 :
    [0x080000000000000BEE, 0x080000000000000FFF, 0x080000000000001000].map firstAnswer =
      [some (.ok 0xBE#64), some (.ok 0xFF#64), some (.ok 0x100#64)] := by decide
theorem test_decode_n12_10 : decodeNat 0x090000000000000BEE = .ok (.n12_10 0xBEE#16) := by decide
theorem test_result_n12_10 :
    [0x090000000000000BEE, 0x090000000000000003, 0x090000000000001000].map firstAnswer =
      [some (.ok 0x2FB#64), some (.ok 0#64), some (.ok 0x400#64)] := by decide
theorem test_decode_reserved0A : decodeNat 0x0A00000000000000FF = .ok (.reserved0A) := by decide
theorem test_result_reserved0A :
    [0x0A00000000000000FF].map firstAnswer =
      [some (.fail .illegalOp)] := by decide
theorem test_decode_w12_16 : decodeNat 0x0B0000000000000ABC = .ok (.w12_16 0xABC#16) := by decide
theorem test_result_w12_16 :
    [0x0B0000000000000ABC, 0x0B0000000000000FFF, 0x0B0000000000001000].map firstAnswer =
      [some (.ok 0xABCA#64), some (.ok 0xFFFF#64), some (.ok 0x10#64)] := by decide
theorem test_decode_n16_8 : decodeNat 0x0C000000000000BEEF = .ok (.n16_8 0xBEEF#16) := by decide
theorem test_result_n16_8 :
    [0x0C000000000000BEEF, 0x0C0000000000008000].map firstAnswer =
      [some (.ok 0xBE#64), some (.ok 0x80#64)] := by decide
theorem test_decode_n16_10 : decodeNat 0x0D000000000000BEEF = .ok (.n16_10 0xBEEF#16) := by decide
theorem test_result_n16_10 :
    [0x0D000000000000BEEF, 0x0D000000000000FFFF].map firstAnswer =
      [some (.ok 0x2FB#64), some (.ok 0x3FF#64)] := by decide
theorem test_decode_n16_12 : decodeNat 0x0E000000000000BEEF = .ok (.n16_12 0xBEEF#16) := by decide
theorem test_result_n16_12 :
    [0x0E000000000000BEEF, 0x0E000000000000000F].map firstAnswer =
      [some (.ok 0xBEE#64), some (.ok 0#64)] := by decide
theorem test_decode_reserved0F : decodeNat 0x0F00000000000000FF = .ok (.reserved0F) := by decide
theorem test_result_reserved0F :
    [0x0F00000000000000FF].map firstAnswer =
      [some (.fail .illegalOp)] := by decide
theorem test_decode_reserved10 : decodeNat 0x1000000000000000FF = .ok (.reserved10) := by decide
theorem test_result_reserved10 :
    [0x1000000000000000FF].map firstAnswer =
      [some (.fail .illegalOp)] := by decide
theorem test_decode_wb8_10 : decodeNat 0x110000000000000040 = .ok (.wb8_10 0x40#8) := by decide
theorem test_result_wb8_10 :
    [0x110000000000000040, 0x1100000000000001FF, 0x11FFFFFFFFFFFFFF01].map firstAnswer =
      [some (.ok 0x101#64), some (.ok 0x3FF#64), some (.ok 4#64)] := by decide
theorem test_decode_wb8_12 : decodeNat 0x120000000000000080 = .ok (.wb8_12 0x80#8) := by decide
theorem test_result_wb8_12 :
    [0x120000000000000080, 0x12FFFFFFFFFFFFFF01].map firstAnswer =
      [some (.ok 0x808#64), some (.ok 0x10#64)] := by decide
theorem test_decode_reserved13 : decodeNat 0x1300000000000000FF = .ok (.reserved13) := by decide
theorem test_result_reserved13 :
    [0x1300000000000000FF].map firstAnswer =
      [some (.fail .illegalOp)] := by decide
theorem test_decode_pack : decodeNat 0x144444333322221111 = .ok (.pack 0x1111#16 0x2222#16 0x3333#16 0x4444#16) := by decide
theorem test_result_pack :
    [0x144444333322221111, 0x1400CC00B60026009B].map firstAnswer =
      [some (.ok 0x4444333322221111#64), some (.ok 0x00CC00B60026009B#64)] := by decide
theorem test_decode_packRgba32 : decodeNat 0x15ABCDEF0F04030201 = .ok (.packRgba32 1#8 2#8 3#8 4#8 15#4) := by decide
theorem test_result_packRgba32 :
    [0x15ABCDEF0F04030201, 0x150000000F80FF0100, 0x150000000E04030201, 0x150000000004030201].map firstAnswer =
      [some (.ok 0x0404030302020101#64), some (.ok 0x8080FFFF01010000#64), some (.fail .invalidInput), some (.fail .invalidInput)] := by decide
theorem test_decode_unpkRgba32 : decodeNat 0x161234ABCD00FFFF00 = .ok (.unpkRgba32 0x1234ABCD00FFFF00#64) := by decide
theorem test_result_unpkRgba32 :
    [0x161234ABCD00FFFF00, 0x1600CC00B60026009B].map firstAnswer =
      [some (.ok 0x12AB00FF#64), some (.ok 0#64)] := by decide
theorem test_decode_packGray : decodeNat 0x17AAAA000000001234 = .ok (.packGray 0x1234#16) := by decide
theorem test_result_packGray :
    [0x17AAAA000000001234, 0x170000000000000000].map firstAnswer =
      [some (.ok 0xFFFF123412341234#64), some (.ok 0xFFFF000000000000#64)] := by decide
theorem test_decode_unpkR : decodeNat 0x184444333322221111 = .ok (.unpkR 0x4444333322221111#64) := by decide
theorem test_result_unpkR :
    [0x184444333322221111].map firstAnswer =
      [some (.ok 0x1111#64)] := by decide
theorem test_decode_unpkG : decodeNat 0x194444333322221111 = .ok (.unpkG 0x4444333322221111#64) := by decide
theorem test_result_unpkG :
    [0x194444333322221111].map firstAnswer =
      [some (.ok 0x2222#64)] := by decide
theorem test_decode_unpkB : decodeNat 0x1A4444333322221111 = .ok (.unpkB 0x4444333322221111#64) := by decide
theorem test_result_unpkB :
    [0x1A4444333322221111].map firstAnswer =
      [some (.ok 0x3333#64)] := by decide
theorem test_decode_unpkA : decodeNat 0x1B4444333322221111 = .ok (.unpkA 0x4444333322221111#64) := by decide
theorem test_result_unpkA :
    [0x1B4444333322221111, 0x1B8000000000000000].map firstAnswer =
      [some (.ok 0x4444#64), some (.ok 0x8000#64)] := by decide
theorem test_decode_reserved1C : decodeNat 0x1C00000000000000FF = .ok (.reserved1C) := by decide
theorem test_result_reserved1C :
    [0x1C00000000000000FF].map firstAnswer =
      [some (.fail .illegalOp)] := by decide
theorem test_decode_reserved1D : decodeNat 0x1D00000000000000FF = .ok (.reserved1D) := by decide
theorem test_result_reserved1D :
    [0x1D00000000000000FF].map firstAnswer =
      [some (.fail .illegalOp)] := by decide
theorem test_decode_reserved1E : decodeNat 0x1E00000000000000FF = .ok (.reserved1E) := by decide
theorem test_result_reserved1E :
    [0x1E00000000000000FF].map firstAnswer =
      [some (.fail .illegalOp)] := by decide
theorem test_decode_reserved1F : decodeNat 0x1FFFFFFFFFFFFFFFFF = .ok (.reserved1F) := by decide
theorem test_result_reserved1F :
    [0x1FFFFFFFFFFFFFFFFF].map firstAnswer =
      [some (.fail .illegalOp)] := by decide

/-! ### The encoder (`30_encoding.md` R76), the decoder's refusal, status 11 -/

theorem test_encode_s16 : (encode (.w8_16 0xFF#16)).toNat = 0x0300000000000000FF := by decide
theorem test_encode_s8 : (encode (.wb8_12 0x80#8)).toNat = 0x120000000000000080 := by decide
theorem test_encode_q16 : (encode (.pack 155#16 38#16 182#16 204#16)).toNat = 0x1400CC00B60026009B := by decide
theorem test_encode_px : (encode (.unpkA 0x00CC00B60026009B#64)).toNat = 0x1B00CC00B60026009B := by decide
theorem test_encode_b4k : (encode (.packRgba32 5#8 6#8 0#8 0#8 0b0011#4)).toNat = 0x150000000300000605 := by decide
theorem test_word_of_70_bits_refused : decodeNat (2 ^ 69) = .error .wordTooWide := by decide
theorem test_largest_word_decodes : decodeNat (2 ^ 69 - 1) = .ok .reserved1F := by decide
theorem test_table_word : decodeTableWord 72 0x0300000000000000FF = some (.w8_16 0xFF#16) := by decide

/-! ### WellFormed: an ill-formed command for each check, and a command at each check's boundary -/

theorem test_range_8 : (Instr.w8_10 0x100#16).inRange = false ∧ (Instr.w8_10 0xFF#16).wellFormed = true := by decide
theorem test_range_10 : (Instr.n10_8 0x400#16).inRange = false ∧ (Instr.n10_8 0x3FF#16).wellFormed = true := by decide
theorem test_range_12 : (Instr.w12_16 0x1000#16).inRange = false ∧ (Instr.w12_16 0xFFF#16).wellFormed = true := by decide
theorem test_range_16 : (Instr.n16_8 0xFFFF#16).wellFormed = true := by decide
theorem test_reserved_not_named : Instr.reserved05.named = false ∧ Instr.reserved05.wellFormed = false := by decide
theorem test_partial_group : (Instr.packRgba32 1#8 2#8 3#8 0#8 0b0111#4).groupFilled = false := by decide

/-! ### `OOR_MODE` = `opaque` (R152): free for an out-of-range sample only -/

theorem test_opaque_out_of_range :
    response .opaqueOor (.w8_16 0x1234#16) = .ok (resultY16 (Config.oor 0x03#5 0x1234#16)) := rfl
theorem test_opaque_in_range : response .opaqueOor (.w8_16 0xFF#16) = .ok 0xFFFF#64 := by decide
theorem test_opaque_narrow : response .opaqueOor (.n10_8 0x400#16) = .ok (resultY16 (Config.oor 0x04#5 0x400#16)) := rfl
theorem test_opaque_16_is_total : response .opaqueOor (.n16_8 0xFFFF#16) = .ok 0xFF#64 := by decide

/-! ### Sequences and buffers (`95_test_vectors.md` section 4, programs P2, P5, P6, P7, P8) -/

theorem test_from_rgba32 : fromRgba32 .container16 2 1 [155, 38, 182, 204, 0, 1, 255, 128] =
    .ok ⟨2, 1, [0xCCCCB6B626269B9B#64, 0x8080FFFF01010000#64]⟩ := by decide
theorem test_to_rgba32 : toRgba32 .container16 ⟨2, 1, [0xCCCCB6B626269B9B#64, 0x8080FFFF01010000#64]⟩ =
    .ok [155, 38, 182, 204, 0, 1, 255, 128] := by decide
theorem test_partial_stream : fromRgba32 .container16 1 2 [1, 2, 3, 4, 5, 6] = .error .invalidInput := by decide
theorem test_partial_stream_words : (rgba32Commands [1, 2, 3, 4, 5, 6]).map (fun i => (encode i).toNat) =
    [0x150000000F04030201, 0x150000000300000605] := by decide
theorem test_faults_not_sticky :
    ([.w8_16 0xFF#16, .reserved05, .w8_16 0xFF#16] : List Instr).map (response .container16) =
      [.ok 0xFFFF#64, .fail .illegalOp, .ok 0xFFFF#64] := by decide
theorem test_from_grayscale : fromGrayscale .container16 ⟨3, 1, [0x0000#16, 0x8080#16, 0xFFFF#16]⟩ =
    .ok ⟨3, 1, [0xFFFF000000000000#64, 0xFFFF808080808080#64, 0xFFFFFFFFFFFFFFFF#64]⟩ := by decide
theorem test_empty_stream : fromRgba32 .container16 0 0 [] = .ok ⟨0, 0, []⟩ := by decide
theorem test_empty_run_over : State.reset.runOver ∧ State.reset.faultFree = true := by decide

/-! ### The assembler's text (`30_encoding.md` R76, R77, R80; the lines stand in `95_test_vectors.md` section 4) -/

/-- The word of a line as a number. -/
def wordOf (text : String) : Except AsmError Nat := (assembleText text.toList).map (·.toNat)

theorem test_text_pack : wordOf "PACK 155, 38, 182, 204" = .ok 0x1400CC00B60026009B := by decide
theorem test_text_group : wordOf "PACK_RGBA32 155, 38, 182, 204" = .ok 0x150000000FCCB6269B := by decide
theorem test_text_keep : wordOf "PACK_RGBA32 5, 6, 0, 0, keep=0b0011" = .ok 0x150000000300000605 := by decide
theorem test_text_small_letters : wordOf "W10_16 0x2a5" = wordOf "W10_16 0x2A5" := by decide
theorem test_text_hex : wordOf "W10_16 0x2A5" = .ok 0x0700000000000002A5 := by decide
theorem test_text_reserved : wordOf ".op 0x05 0xFF" = .ok 0x0500000000000000FF := by decide
theorem test_text_other_name : wordOf "widen_8_to_16 255" = .ok 0x0300000000000000FF := by decide
theorem test_text_too_wide : wordOf "WB8_10 256" = .error .operandTooWide := by decide
theorem test_text_named_code : wordOf ".op 0x03 0xFF" = .error .notReserved := by decide
theorem test_text_unknown : wordOf "W16_8 1" = .error .unknownName := by decide
theorem test_text_keep_not_allowed : wordOf "W8_16 1, keep=1" = .error .keepNotAllowed := by decide
theorem test_text_count : wordOf "PACK 1, 2, 3" = .error .operandCount := by decide
theorem test_text_bad : wordOf "W8_16 12G" = .error .badText := by decide
theorem test_widen_pair : assemble ⟨"widen", [0xFF, 8, 16], none⟩ = assemble ⟨"W8_16", [0xFF], none⟩ := by decide
theorem test_widen_no_pair : assemble ⟨"widen", [0xFF, 16, 8], none⟩ = .error .noSuchPair := by decide
theorem test_narrow_equal_depths : assemble ⟨"narrow", [0xFF, 8, 8], none⟩ = .error .noSuchPair := by decide

/-! ### One edge each -/

/-- Pins at an edge at which the host only says whether it takes a response. -/
def hostPins (ready : Bool) : InPins := { quietPins with rspReady := ready }

/-- A block that owes the response to `W8_16 0xFF`, accepted at edge 0, and whose `LATENCY` has just passed. -/
def owing (inputs : List InPins) : State where
  oorMode := .container16
  inputs := inputs
  inFlight := [⟨.w8_16 0xFF#16, .ok 0xFFFF#64, 0⟩]
  accepted := [.w8_16 0xFF#16]
  answered := []
  cycle := Config.latency 0

theorem owing_due (inputs : List InPins) : (owing inputs).due ⟨.w8_16 0xFF#16, .ok 0xFFFF#64, 0⟩ = true := by
  simp [State.due, owing]

theorem owing_presented (inputs : List InPins) : (owing inputs).presented = some (.ok 0xFFFF#64) :=
  (State.presented_eq_some _ _).2 ⟨_, _, rfl, owing_due inputs, rfl⟩

/-- The host takes the response at the edge at which `rsp_ready` = 1 (R62). -/
theorem test_response_taken : ∃ t, step (owing [hostPins true]) = .next t ∧ t.answered = [.ok 0xFFFF#64] ∧ t.inFlight = [] := by
  refine ⟨_, step_eq _, ?_⟩
  have h : (owing [hostPins true]).afterAccept = owing [hostPins true] := rfl
  have hp : (owing [hostPins true]).pins.rspReady = true := rfl
  have hr : (owing [hostPins true]).pins.rst = false := rfl
  simp only [hr, h, Bool.false_eq_true, if_false, State.endEdge, State.deliver, hp, if_true, owing_presented]
  exact ⟨rfl, rfl⟩

/-- A response that is due is on the pins, and `y` with it (R61, R62). -/
theorem test_outputs : (owing [hostPins true]).outputs.rspValid = true ∧ (owing [hostPins true]).outputs.rspY = 0xFFFF#64 := by
  have ha : acceptPhase (owing [hostPins true]) = .next (owing [hostPins true]) := rfl
  have hr : (owing [hostPins true]).pins.rst = false := rfl
  simp only [State.outputs, hr, ha, Bool.false_eq_true, if_false, channelWires, owing_presented]
  exact ⟨trivial, trivial⟩

/-- A reset edge drops what was in flight (R230). -/
theorem test_reset_edge : ∃ t, step (owing [{ quietPins with rst := true }]) = .next t ∧ t.inFlight = [] ∧ t.answered = [] :=
  ⟨_, step_eq _, rfl, rfl⟩

/-! ### Witnesses: for each statement with hypotheses, a state and operands that meet them -/

/-- A block with `OOR_MODE` = `opaque`. -/
def opaqueBlock : State := { State.reset with oorMode := .opaqueOor }

/-- The block just after reset with `W8_16 0xFF` on its command channel. -/
def asked : State := { State.reset with inputs := [⟨false, true, 0x03#5, 0xFF#64, true⟩] }

theorem witness_IgnoredBitsDoNotMatter :
    0xFFFFFFFFFFFFFF01#64 &&& namedBits 0x11#5 = 0x01#64 &&& namedBits 0x11#5 ∧ 0xFFFFFFFFFFFFFF01#64 ≠ 0x01#64 := by decide

theorem witness_OpcodeGroupZero :
    Depth.d8.bits < Depth.d10.bits ∧ Depth.d10.bits < Depth.d16.bits ∧ Depth.d12.bits = Depth.d12.bits := by decide

/-- The three sides of a container conversion's rule at the boundary 2^8: 2^8 under `opaque`, 2^8 - 1 under `opaque`, 2^8 under
`container16`. -/
theorem witness_ContainerWideningResults :
    (2 ^ 8 ≤ (0x100#16).toNat ∧ opaqueBlock.oorMode = .opaqueOor) ∧
    ¬ (2 ^ 8 ≤ (0xFF#16).toNat ∧ opaqueBlock.oorMode = .opaqueOor) ∧
    ¬ (2 ^ 8 ≤ (0x100#16).toNat ∧ State.reset.oorMode = .opaqueOor) := by decide

theorem witness_ContainerWideningResults_10_12 :
    (2 ^ 10 ≤ (0x400#16).toNat ∧ opaqueBlock.oorMode = .opaqueOor) ∧
    ¬ (2 ^ 10 ≤ (0x3FF#16).toNat ∧ opaqueBlock.oorMode = .opaqueOor) ∧
    (2 ^ 12 ≤ (0x1000#16).toNat ∧ opaqueBlock.oorMode = .opaqueOor) ∧
    ¬ (2 ^ 12 ≤ (0xFFF#16).toNat ∧ opaqueBlock.oorMode = .opaqueOor) := by decide

theorem witness_NarrowingResults :
    (2 ^ 10 ≤ (0x400#16).toNat ∧ opaqueBlock.oorMode = .opaqueOor) ∧
    ¬ (2 ^ 12 ≤ (0xFFF#16).toNat ∧ opaqueBlock.oorMode = .opaqueOor) ∧
    ¬ (2 ^ 12 ≤ (0x1000#16).toNat ∧ State.reset.oorMode = .opaqueOor) := by decide

theorem witness_PackRgba32Result : 15#4 = 0b1111#4 ∧ 14#4 ≠ 0b1111#4 ∧ 0#4 ≠ 0b1111#4 := by decide

/-- The later state of the last hypothesis: right after the edge of a command that failed. -/
theorem witness_FaultsAreNotSticky : ∃ t, exec .reserved05 asked = .next t ∧ run 0 t.endEdge = .next t.endEdge := ⟨_, rfl, rfl⟩

theorem witness_ReservedCodesAreIllegal :
    Instr.reserved00 ∈ reservedInstrs ∧ Instr.reserved1F ∈ reservedInstrs ∧
    (0x13#5 : Op).toNat ∈ reservedCodes ∧ (0x01#5 : Op).toNat ∉ reservedCodes := by decide

theorem witness_ResponseDependsOnCommandAlone :
    State.reset.oorMode = (owing []).oorMode ∧ State.reset.inFlight ≠ (owing []).inFlight := by decide

theorem witness_StepRunsTransferredCommand :
    asked.pins.rst = false ∧ asked.pins.cmdValid = true ∧ asked.cmdReady = true ∧
    decodeCmd asked.pins.cmdOp asked.pins.cmdA = .w8_16 0xFF#16 := by decide

theorem witness_PresentedWordIsExecuted : decodeTableWord 72 0x1B00CC00B60026009B = some (.unpkA 0x00CC00B60026009B#64) := by decide

theorem witness_NoTransferAcceptsNothing :
    (owing []).pins.rst = false ∧ ¬ ((owing []).pins.cmdValid = true ∧ (owing []).cmdReady = true) :=
  ⟨rfl, fun h => Bool.noConfusion h.1⟩

/-- Both clauses: a response that is taken, and none because the host is not ready. -/
theorem witness_ResponseTransfer :
    (owing [hostPins true]).pins.rst = false ∧ acceptPhase (owing [hostPins true]) = .next (owing [hostPins true]) ∧
    ((owing [hostPins true]).pins.rspReady = true ∧ (owing [hostPins true]).rspValid = true) ∧
    ¬ ((owing [hostPins false]).pins.rspReady = true ∧ (owing [hostPins false]).rspValid = true) :=
  ⟨rfl, rfl, ⟨rfl, by simp [State.rspValid, owing_presented]⟩, fun h => Bool.noConfusion h.1⟩

theorem witness_HeldResponseStays :
    (owing [hostPins false]).pins.rst = false ∧ (owing [hostPins false]).pins.rspReady = false ∧
    acceptPhase (owing [hostPins false]) = .next (owing [hostPins false]) ∧
    (owing [hostPins false]).presented = some (.ok 0xFFFF#64) :=
  ⟨rfl, rfl, rfl, owing_presented _⟩

/-- The block just after reset with a word presented and `rsp_ready` = 0, in an implementation that answers in the beat of the command:
the response that is held is first presented at this edge. -/
theorem witness_HeldResponseStays_same_beat (h : Config.latency 0 = 0) :
    ∃ t, acceptPhase (State.reset.withFetchWord 72 0x0300000000000000FF) = .next t ∧ t.presented = some (.ok 0xFFFF#64) :=
  ⟨_, rfl, (State.presented_eq_some _ _).2 ⟨_, _, rfl, by simp [State.due]; exact h, rfl⟩⟩

theorem witness_OutputsShowTheResponse :
    (owing []).pins.rst = false ∧ acceptPhase (owing []) = .next (owing []) ∧ (owing []).presented = some (.ok 0xFFFF#64) :=
  ⟨rfl, rfl, owing_presented _⟩

theorem witness_ResetEdgeEmptiesTheBlock : (owing [{ quietPins with rst := true }]).pins.rst = true := rfl

theorem witness_ResetEdgeStartsNewRun :
    (owing [{ quietPins with rst := true }]).pins.rst = true ∧ ¬ (owing [{ quietPins with rst := true }]).launched := by decide

/-- A state in which the host has taken one response and the block owes another. -/
def midRun : State where
  oorMode := .container16
  inputs := []
  inFlight := [⟨.reserved05, .fail .illegalOp, 3⟩]
  accepted := [.w8_16 0xFF#16, .reserved05]
  answered := [.ok 0xFFFF#64]
  cycle := 4

/-- Log 18: a run that is not over is fault-free by the responses taken so far. -/
theorem test_unfinished_run_fault_free : midRun.faultFree = true ∧ ¬ midRun.runOver := by decide

theorem witness_StepKeepsConsistent : midRun.Consistent ∧ ∃ t, step midRun = .next t :=
  ⟨⟨by decide, by decide, by decide, by decide⟩, ⟨_, step_eq _⟩⟩

theorem witness_RunAnswersInCommandOrder : State.reset.launched ∧ ∃ t, run 2 State.reset = .next t ∧ t.runOver :=
  ⟨by decide, ⟨_, rfl, rfl⟩⟩

theorem witness_RunAnswersInCommandOrder_with_a_command : asked.launched ∧ ∃ t, run 1 asked = .next t ∧ t.accepted = [.w8_16 0xFF#16] :=
  ⟨by decide, ⟨_, run_succ 0 asked, by rw [State.afterEdge_of_not_rst rfl, State.endEdge_accepted]; rfl⟩⟩

theorem witness_EveryAcceptedCommandIsAnswered :
    drainBound (owing [hostPins true]) ≤ 1 ∧ (owing [hostPins true]).hostTakes 1 = true := by
  refine ⟨?_, rfl⟩
  simp [drainBound, owing]

theorem witness_WidenThenNarrow :
    (8, 16, Instr.w8_16, Instr.n16_8) ∈ widenNarrowPairs ∧ (0xFF#16 : Sample).toNat < 2 ^ 8 :=
  ⟨by simp [widenNarrowPairs], by decide⟩

theorem witness_WideningSumForm :
    (12, 16, Instr.w12_16, Instr.n16_12) ∈ widenNarrowPairs ∧ (0xFFF#16 : Sample).toNat < 2 ^ 12 :=
  ⟨by simp [widenNarrowPairs], by decide⟩

theorem witness_EndpointsMapToEndpoints : (10, 12, Instr.w10_12, Instr.n12_10) ∈ widenNarrowPairs := by simp [widenNarrowPairs]

theorem witness_WideningIncreasesInRange :
    (8, 10, Instr.w8_10, Instr.n10_8) ∈ widenNarrowPairs ∧
    (0xFE#16 : Sample).toNat < (0xFF#16 : Sample).toNat ∧ (0xFF#16 : Sample).toNat < 2 ^ 8 :=
  ⟨by simp [widenNarrowPairs], by decide⟩

/-- Both sides of the equivalence hold of `N16_8 0xBEEF` and 0xBE. -/
theorem witness_NarrowingFibres :
    (8, 16, Instr.w8_16, Instr.n16_8) ∈ widenNarrowPairs ∧ (0xBEEF#16 : Sample).toNat < 2 ^ 16 ∧
    Converts .container16 (.n16_8 0xBEEF#16) 0xBE ∧ 0xBE * 2 ^ (16 - 8) ≤ (0xBEEF#16 : Sample).toNat ∧
    (0xBEEF#16 : Sample).toNat < (0xBE + 1) * 2 ^ (16 - 8) :=
  ⟨by simp [widenNarrowPairs], by decide, ⟨_, rfl, by decide⟩, by decide⟩

theorem witness_NarrowingsCompose : (0xFFF#16 : Sample).toNat < 2 ^ 12 := by decide

/-- The two kinds of pixel of the second clause: equal and unequal halves in lane 3. -/
theorem witness_GroupRoundTrip :
    laneNat 3 0xCCCCB6B626269B9B / 2 ^ 8 = laneNat 3 0xCCCCB6B626269B9B % 2 ^ 8 ∧
    laneNat 3 0x00CC00B60026009B / 2 ^ 8 ≠ laneNat 3 0x00CC00B60026009B % 2 ^ 8 := by norm_num [laneNat]

theorem witness_SequenceFormOutcome :
    (∀ x ∈ [0xFF#16, 0x100#16], (Instr.w8_16 x).named = true ∧ (Instr.w8_16 x).groupFilled = true) ∧
    collect [.ok 1#64, .ok 2#64] = .ok [1#64, 2#64] ∧
    collect [.ok 1#64, .fail .invalidInput, .fail .illegalOp] = .error .invalidInput :=
  ⟨by simp [Instr.named, Instr.groupFilled], by decide⟩

theorem witness_FromRgba32Outcome :
    ([1, 2, 3] : List Byte).length % 4 ≠ 0 ∧ ([1, 2, 3, 4] : List Byte).length % 4 = 0 ∧ ([] : List Byte).length % 4 = 0 := by decide

theorem witness_StreamRoundTrip : ([155, 38, 182, 204, 0, 1, 255, 128] : List Byte).length % 4 = 0 := by decide

/-- A block that has answered the stream [1, 2, 3, 4, 5, 6] (program P5). -/
def answeredP5 : State where
  oorMode := .container16
  inputs := []
  inFlight := []
  accepted := [.packRgba32 1 2 3 4 0b1111#4, .packRgba32 5 6 0 0 0b0011#4]
  answered := [.ok 0x0404030302020101#64, .fail .invalidInput]
  cycle := 9

theorem witness_BlockRunsFromRgba32 : answeredP5.Consistent ∧ answeredP5.runOver ∧ streamCut answeredP5.accepted [1, 2, 3, 4, 5, 6] :=
  ⟨⟨by decide, by decide, by decide, by decide⟩, by decide, by decide⟩

theorem witness_AssemblerFitsOrRejects :
    ("W8_16", 0x03) ∈ codesS16 ∧ ("WB8_12", 0x12) ∈ codesS8 ∧ ("UNPK_A", 0x1B) ∈ codesPX ∧ 0x1F ∈ reservedCodes := by decide

/-- Both sides of the premise: in-range samples in a block fixed to `opaque`, and an out-of-range sample under `container16`. -/
theorem witness_DocumentedSamplesGiveContainer16Responses :
    samplesDocumented .opaqueOor [.w8_16 0xFF#16, .n10_8 0x3FF#16] ∧ samplesDocumented .container16 [.w8_16 0x100#16] :=
  ⟨.inl (by decide), .inr rfl⟩

theorem witness_ParametrisedFormsAtDocumentedPairs :
    widenCommand Depth.d8.bits Depth.d16.bits = some Instr.w8_16 ∧ narrowCommand Depth.d16.bits Depth.d12.bits = some Instr.n16_12 :=
  ⟨rfl, rfl⟩

theorem witness_OtherNamesAssembleAlike : ("red()", "UNPK_R") ∈ doc00Names := by decide

end Sys2Proof.Tests
end

/-! PROOFS. The statements about the opcode map, the reserved codes, the response word, the sequence forms and the assembler's other
names (`30_encoding.md`). First what serves every family: a command completes with its response, and only with it; which responses
there are; the code of what is decoded. -/

namespace Sys2Proof.Encoding

open Sys2Proof.Machine Sys2Proof.Claims

/-! ### Executing a command completes with its response -/

/-- A command completes with the response that is the function of the command (R47), and with no other. -/
theorem completes_iff_response_eq (i : Instr) (s : State) (r : Response) : Completes i s r ↔ response s.oorMode i = r := by
  constructor
  · rintro ⟨t, ht, hq, -⟩
    obtain rfl : s.accept i (response s.oorMode i) = t := Host.Outcome.next.inj ((exec_eq_accept i s).symm.trans ht)
    simpa using hq
  · rintro rfl
    exact ⟨_, exec_eq_accept i s, rfl, rfl, rfl, rfl, rfl, rfl⟩

theorem completesWith_iff_converts (i : Instr) (s : State) (n : Nat) : CompletesWith i s n ↔ Converts s.oorMode i n := by
  simp only [CompletesWith, Converts, completes_iff_response_eq]

/-! ### Which response a command gets (R200) -/

theorem response_of_not_named (m : OorMode) {i : Instr} (h : i.named = false) : response m i = .fail .illegalOp := by
  cases i <;> cases h <;> rfl

/-- Only the `PACK_RGBA32` group has a filling to speak of (R121). -/
theorem response_of_not_groupFilled (m : OorMode) {i : Instr} (h : i.groupFilled = false) :
    response m i = .fail .invalidInput := by
  cases i with
  | packRgba32 r g b a keep => exact if_pos (of_decide_eq_false h)
  | _ => cases h

theorem response_of_named_of_groupFilled (m : OorMode) {i : Instr} (hn : i.named = true) (hf : i.groupFilled = true) :
    ∃ y, response m i = .ok y := by
  cases i with
  | packRgba32 r g b a keep => exact ⟨_, if_neg (not_not_intro (of_decide_eq_true hf))⟩
  | _ => cases hn <;> exact ⟨_, rfl⟩

/-- IllegalOp is the response to the commands that name no operation, and to no others (R201). -/
theorem response_eq_illegalOp_iff (m : OorMode) (i : Instr) : response m i = .fail .illegalOp ↔ i.named = false := by
  refine ⟨fun h => ?_, response_of_not_named m⟩
  by_contra hn
  rw [Bool.not_eq_false] at hn
  cases hf : i.groupFilled with
  | false => simp [response_of_not_groupFilled m hf] at h
  | true =>
    obtain ⟨y, hy⟩ := response_of_named_of_groupFilled m hn hf
    simp [hy] at h

/-! ### The code of a decoded command -/

/-- The statement of `Laws.OpField` for every instruction. -/
theorem opField_statement (i : Instr) : Laws.OpField.Statement i := by
  intro a
  cases i <;> rfl

/-- No bit of `a` changes which operation is decoded: the code of the decoded command is `op` (R75). -/
@[simp] theorem encodeOp_decodeCmd (op : Op) (a : Operand) : encodeOp (decodeCmd op a) = op := by
  have code_used (op : Op) : encodeOp (decodeCmd op 0) = op := by revert op; decide
  rw [← code_used op]
  exact opField_statement _ a

theorem named_eq_decide_code (i : Instr) : i.named = decide ((encodeOp i).toNat ∉ reservedCodes) := by
  cases i <;> rfl

/-- A code is named or reserved whatever its operand is (R74, R75). -/
theorem decodeCmd_named (op : Op) (a : Operand) : (decodeCmd op a).named = decide (op.toNat ∉ reservedCodes) := by
  rw [named_eq_decide_code, encodeOp_decodeCmd]

theorem decodeCmd_not_named_iff (op : Op) (a : Operand) : (decodeCmd op a).named = false ↔ op.toNat ∈ reservedCodes := by
  rw [decodeCmd_named, decide_eq_false_iff_not, not_not]

theorem mem_reservedInstrs_iff (i : Instr) : i ∈ reservedInstrs ↔ i.named = false := by
  cases i <;> simp [reservedInstrs, Instr.named]

/-- Settles O3: the code of the decoded command is `op`, so what is read off the code is the same for every operand. -/
theorem decodingDependsOnOpAlone : Obligations.DecodingDependsOnOpAlone := by
  refine ⟨encodeOp_decodeCmd, fun op a b => ?_, fun a => ⟨_, _, _, _, _, rfl⟩⟩
  rw [decodeCmd_named, decodeCmd_named]

/-- Settles O16: the reserved commands are those that name no operation, and these are the ones answered IllegalOp. -/
theorem reservedCodesAreIllegal : Obligations.ReservedCodesAreIllegal := by
  refine ⟨fun i hi s => ?_, fun op a => ?_, fun op a s => ?_⟩
  · rw [completes_iff_response_eq, response_eq_illegalOp_iff]
    exact (mem_reservedInstrs_iff i).1 hi
  · rw [mem_reservedInstrs_iff, decodeCmd_not_named_iff]
  · rw [completes_iff_response_eq, response_eq_illegalOp_iff, decodeCmd_not_named_iff]

/-! ### The opcode map -/

/-- The six pairs of depths with a smaller first one (R10). -/
theorem depths_of_bits_lt {S T : Depth} (h : S.bits < T.bits) :
    S = .d8 ∧ T = .d10 ∨ S = .d8 ∧ T = .d12 ∨ S = .d8 ∧ T = .d16 ∨
    S = .d10 ∧ T = .d12 ∨ S = .d10 ∧ T = .d16 ∨ S = .d12 ∧ T = .d16 := by
  cases S <;> cases T <;> simp [Depth.bits] at h ⊢

theorem decodeCmd_widening {S T : Depth} (h : S.bits < T.bits) (a : Operand) :
    ∃ mk, widenCommand S.bits T.bits = some mk ∧ decodeCmd (0#1 ++ S.code ++ T.code) a = mk (fieldS16 a) := by
  obtain ⟨rfl, rfl⟩ | ⟨rfl, rfl⟩ | ⟨rfl, rfl⟩ | ⟨rfl, rfl⟩ | ⟨rfl, rfl⟩ | ⟨rfl, rfl⟩ := depths_of_bits_lt h
  all_goals exact ⟨_, rfl, rfl⟩

theorem decodeCmd_narrowing {S T : Depth} (h : T.bits < S.bits) (a : Operand) :
    ∃ mk, narrowCommand S.bits T.bits = some mk ∧ decodeCmd (0#1 ++ S.code ++ T.code) a = mk (fieldS16 a) := by
  obtain ⟨rfl, rfl⟩ | ⟨rfl, rfl⟩ | ⟨rfl, rfl⟩ | ⟨rfl, rfl⟩ | ⟨rfl, rfl⟩ | ⟨rfl, rfl⟩ := depths_of_bits_lt h
  all_goals exact ⟨_, rfl, rfl⟩

theorem equal_depths_code_reserved (S : Depth) : (0#1 ++ S.code ++ S.code : Op).toNat ∈ reservedCodes := by
  cases S <;> decide

/-- Settles O5, by the order of the two depths. -/
theorem opcodeGroupZero : Obligations.OpcodeGroupZero := by
  refine fun S T a => ⟨fun h => decodeCmd_widening h a, fun h => decodeCmd_narrowing h a, ?_⟩
  rintro rfl
  exact (decodeCmd_not_named_iff _ a).2 (equal_depths_code_reserved S)

/-- The accessor codes: the low two bits of the code are the number of the lane (R72, R102 to R105). -/
theorem response_accessor (m : OorMode) (n : BitVec 2) (p : Operand) :
    response m (decodeCmd (0b110#3 ++ n) p) = .ok (resultY16 (lane n.toNat p)) := by
  have lanes : n = 0#2 ∨ n = 1#2 ∨ n = 2#2 ∨ n = 3#2 := by revert n; decide
  obtain rfl | rfl | rfl | rfl := lanes <;> rfl

theorem subgroup_three_reserved (n : BitVec 2) : (0b111#3 ++ n : Op).toNat ∈ reservedCodes := by
  revert n; decide

/-- Settles O6: the codes of the first two subgroups one by one, the accessors by their lane, the last subgroup by its codes. -/
theorem opcodeGroupOne : Obligations.OpcodeGroupOne := by
  refine ⟨fun a => ⟨rfl, rfl, rfl, rfl, rfl, rfl, rfl, rfl⟩, fun n p s => ?_, fun n a => ?_⟩
  · rw [completesWith_iff_converts]
    exact ⟨_, response_accessor _ n p, by rw [resultY16_toNat, lane_toNat, laneNat]⟩
  · exact (decodeCmd_not_named_iff _ a).2 (subgroup_three_reserved n)

/-! ### The outcome of a sequence form -/

theorem collect_map_ok (ys : List Result) : collect (ys.map .ok) = .ok ys := by
  induction ys with
  | nil => rfl
  | cons y ys ih => simp [collect, ih]

theorem collect_first_fail (ys : List Result) (f : CmdFault) (rest : List Response) :
    collect (ys.map .ok ++ .fail f :: rest) = .error f := by
  induction ys with
  | nil => rfl
  | cons y ys ih => simp [collect, ih]

/-- Responses are all OK, or there is a first one that is not. -/
theorem responses_cases (rs : List Response) :
    (∃ ys : List Result, rs = ys.map .ok) ∨
    ∃ (ys : List Result) (f : CmdFault) (rest : List Response), rs = ys.map .ok ++ .fail f :: rest := by
  induction rs with
  | nil => exact .inl ⟨[], rfl⟩
  | cons r rs ih =>
    cases r with
    | fail f => exact .inr ⟨[], f, rs, rfl⟩
    | ok y =>
      obtain ⟨ys, rfl⟩ | ⟨ys, f, rest, rfl⟩ := ih
      · exact .inl ⟨y :: ys, rfl⟩
      · exact .inr ⟨y :: ys, f, rest, rfl⟩

theorem collect_eq_ok_iff (rs : List Response) (ys : List Result) : collect rs = .ok ys ↔ rs = ys.map .ok := by
  refine ⟨fun h => ?_, fun h => h ▸ collect_map_ok ys⟩
  obtain ⟨zs, rfl⟩ | ⟨zs, f, rest, rfl⟩ := responses_cases rs
  · rw [collect_map_ok] at h
    rw [Except.ok.inj h]
  · simp [collect_first_fail] at h

theorem collect_eq_error_iff (rs : List Response) (f : CmdFault) :
    collect rs = .error f ↔ ∃ (ys : List Result) (rest : List Response), rs = ys.map .ok ++ .fail f :: rest := by
  constructor
  · intro h
    obtain ⟨zs, rfl⟩ | ⟨zs, g, rest, rfl⟩ := responses_cases rs
    · simp [collect_map_ok] at h
    · rw [collect_first_fail] at h
      exact ⟨zs, rest, by rw [Except.error.inj h]⟩
  · rintro ⟨ys, rest, rfl⟩
    exact collect_first_fail ys f rest

/-- Named commands with filled groups are all answered OK. -/
theorem responses_all_ok {α : Type} (m : OorMode) (op : α → Instr) (xs : List α)
    (h : ∀ x ∈ xs, (op x).named = true ∧ (op x).groupFilled = true) :
    ∃ ys : List Result, ys.map Response.ok = xs.map fun x => response m (op x) := by
  change (xs.map fun x => response m (op x)) ∈ Set.range (List.map Response.ok)
  rw [Set.range_list_map]
  intro r hr
  obtain ⟨x, hx, rfl⟩ := List.mem_map.1 hr
  obtain ⟨hn, hf⟩ := h x hx
  obtain ⟨y, hy⟩ := response_of_named_of_groupFilled m hn hf
  exact ⟨y, hy.symm⟩

/-- Settles O45: `collect` splits the responses at the first that failed, and a sequence form of commands that cannot fail has none. -/
theorem sequenceFormOutcome : Obligations.SequenceFormOutcome := by
  refine ⟨collect_eq_ok_iff, collect_eq_error_iff, fun _ _ _ => rfl, fun α m op xs h => ?_⟩
  obtain ⟨ys, hys⟩ := responses_all_ok m op xs h
  have same_length : ys.length = xs.length := by simpa using congrArg List.length hys
  exact ⟨ys, (collect_eq_ok_iff _ ys).2 hys.symm, same_length, hys⟩

/-! ### The response word -/

/-- What the result bus carries beside a response: the result, or `free` where there is none (R204). -/
def busValue (free : Result) : Response → Result
  | .ok y => y
  | .fail _ => free

theorem responseWord_eq_append (r : Response) (free : Result) : responseWord r free = r.statusCode ++ busValue free r := by
  cases r <;> rfl

/-- The host reads a response off its status and its bus value, and does not look at `free` (R61, R204). -/
theorem readResponse_statusCode_busValue (r : Response) (free : Result) :
    readResponse r.statusCode (busValue free r) = some r := by
  cases r with
  | ok y => rfl
  | fail f => cases f <;> rfl

theorem responseWord_toNat (r : Response) (free : Result) :
    (responseWord r free).toNat = r.statusCode.toNat * 2 ^ 64 + (busValue free r).toNat := by
  rw [responseWord_eq_append, toNat_append_eq]

/-- Settles O27: the word is the status above the bus value, and each part is read back as it was written. -/
theorem responseWordFormat : Obligations.ResponseWordFormat := by
  refine ⟨fun y free => ?_, fun free => ?_, fun free => ?_, fun r free => ?_, fun _ => rfl⟩
  · simp [responseWord_toNat, Response.statusCode, busValue]
  · simp [responseWord_toNat, Response.statusCode, busValue]
  · simp [responseWord_toNat, Response.statusCode, busValue]
  · rw [responseWord_eq_append, BitVec.extractLsb'_append_eq_left, BitVec.extractLsb'_append_eq_right]
    exact readResponse_statusCode_busValue r free

/-! ### The assembler's other names -/

/-- The assembler looks at a name only through its mnemonic, but for `.op` (R76, R77). -/
theorem assemble_eq_of_mnemonicOf_eq {name name' : String} (h : mnemonicOf name = mnemonicOf name') (hn : name ≠ ".op")
    (hn' : name' ≠ ".op") (operands : List Nat) (keep : Option Nat) :
    assemble ⟨name, operands, keep⟩ = assemble ⟨name', operands, keep⟩ := by
  have same_command : lineCommand ⟨name, operands, keep⟩ = lineCommand ⟨name', operands, keep⟩ := by
    simp only [lineCommand, h]
  simp only [assemble, if_neg hn, if_neg hn', same_command]

/-- Each other name and its mnemonic stand for the same mnemonic, and neither is `.op` (R77). -/
theorem doc00Names_mnemonicOf :
    ∀ p ∈ doc00Names, mnemonicOf p.1 = mnemonicOf p.2 ∧ p.1 ≠ ".op" ∧ p.2 ≠ ".op" := by
  decide

/-- Settles O54: the assembler goes by the mnemonic, which is the same for the two names. -/
theorem otherNamesAssembleAlike : Obligations.OtherNamesAssembleAlike := by
  intro p hp operands keep
  obtain ⟨same_mnemonic, hn, hn'⟩ := doc00Names_mnemonicOf p hp
  exact assemble_eq_of_mnemonicOf_eq same_mnemonic hn hn' operands keep

end Sys2Proof.Encoding

/-! PROOFS. The results of the Packed Pixel Codec (`40_packed_pixel_codec.md`): the lanes of a pixel as numbers, then `PACK` and the
four accessors. -/

namespace Sys2Proof.Codec

open Sys2Proof.Machine Sys2Proof.Claims Sys2Proof.Encoding

/-! ### The lanes of a 64-bit word -/

theorem lane_toNat_eq_laneNat (n : Nat) (p : Pixel) : (lane n p).toNat = laneNat n p.toNat := lane_toNat n p

/-- The slice of format Q16 that starts at bit `16 * n` is the lane `n` (R65). -/
theorem slice_eq_ofNat_laneNat (n : Nat) (a : Operand) : a.extractLsb' (16 * n) 16 = BitVec.ofNat 16 (laneNat n a.toNat) := by
  apply BitVec.eq_of_toNat_eq
  rw [toNat_slice, BitVec.toNat_ofNat, laneNat, Nat.mod_mod]

/-! ### `PACK` -/

theorem decodeCmd_pack (a : Operand) : decodeCmd 0x14#5 a =
    .pack (BitVec.ofNat 16 (laneNat 0 a.toNat)) (BitVec.ofNat 16 (laneNat 1 a.toNat))
      (BitVec.ofNat 16 (laneNat 2 a.toNat)) (BitVec.ofNat 16 (laneNat 3 a.toNat)) := by
  simp only [← slice_eq_ofNat_laneNat]
  rfl

/-- `PACK` is answered with the sum of R101 in either `OOR_MODE`. -/
theorem pack_converts (m : OorMode) (r g b a : Sample) :
    Converts m (.pack r g b a) (packed r.toNat g.toNat b.toNat a.toNat) :=
  ⟨resultYPX (packPixel r g b a), rfl, packPixel_toNat r g b a⟩

/-- Settles O11: the four fields of format Q16 are the lanes of `a`, and the packed pixel has the value of the sum without a carry. -/
theorem packResult : Obligations.PackResult := by
  refine ⟨decodeCmd_pack, fun r g b a s => ?_⟩
  rw [completesWith_iff_converts]
  exact pack_converts s.oorMode r g b a

/-! ### The accessors -/

/-- A command whose response carries a lane of a pixel in a Y16 result completes with that lane and zeros above it (R68). -/
theorem completesWith_laneNat {i : Instr} {s : State} {n : Nat} {p : Pixel}
    (h : response s.oorMode i = .ok (resultY16 (lane n p))) : CompletesWith i s (laneNat n p.toNat) := by
  rw [completesWith_iff_converts]
  exact ⟨resultY16 (lane n p), h, by rw [resultY16_toNat, lane_toNat_eq_laneNat]⟩

/-- Settles O12: each accessor is answered with its own lane of the pixel that is its whole operand. -/
theorem accessorResults : Obligations.AccessorResults := by
  intro p s
  have red : response s.oorMode (.unpkR p) = .ok (resultY16 (lane 0 p)) := rfl
  have green : response s.oorMode (.unpkG p) = .ok (resultY16 (lane 1 p)) := rfl
  have blue : response s.oorMode (.unpkB p) = .ok (resultY16 (lane 2 p)) := rfl
  have alpha : response s.oorMode (.unpkA p) = .ok (resultY16 (lane 3 p)) := rfl
  exact ⟨⟨rfl, completesWith_laneNat red⟩, ⟨rfl, completesWith_laneNat green⟩,
    ⟨rfl, completesWith_laneNat blue⟩, ⟨rfl, completesWith_laneNat alpha⟩⟩

end Sys2Proof.Codec

/-! PROOFS. The results of the buffer conversions (`41_buffer_conversions.md`): the three element steps, how a byte stream is cut into
groups, and the outcomes of `FROM_RGBA32`, `TO_RGBA32` and `FROM_GRAYSCALE`. -/

namespace Sys2Proof.Buffers

open Sys2Proof.Machine Sys2Proof.Claims Sys2Proof.Encoding Sys2Proof.Codec

/-- A command completes with the number that its result holds. -/
theorem completesWith_of_response_ok {i : Instr} {s : State} {y : Result} {n : Nat}
    (h : response s.oorMode i = .ok y) (hn : y.toNat = n) : CompletesWith i s n :=
  ⟨y, (completes_iff_response_eq i s _).2 h, hn⟩

/-! ### `PACK_RGBA32` -/

/-- The pixel of four bytes, each widened by replication (R121). -/
def groupPixel (r g b a : Byte) : Pixel := packPixel (byteTo16 r) (byteTo16 g) (byteTo16 b) (byteTo16 a)

theorem groupPixel_toNat (r g b a : Byte) :
    (groupPixel r g b a).toNat = packed (doubled r.toNat) (doubled g.toNat) (doubled b.toNat) (doubled a.toNat) := by
  simp only [groupPixel, packPixel_toNat, byteTo16_toNat, packed, doubled]

theorem response_packRgba32_filled (m : OorMode) (r g b a : Byte) :
    response m (.packRgba32 r g b a 0b1111#4) = .ok (groupPixel r g b a) := rfl

theorem response_packRgba32_unfilled (m : OorMode) (r g b a : Byte) {keep : BitVec 4} (h : keep ≠ 0b1111#4) :
    response m (.packRgba32 r g b a keep) = .fail .invalidInput :=
  response_of_not_groupFilled m (decide_eq_false h)

/-- The fields of format B4K as numbers (R67). -/
theorem decodeCmd_packRgba32 (a : Operand) : decodeCmd 0x15#5 a =
    .packRgba32 (BitVec.ofNat 8 (a.toNat % 2 ^ 8)) (BitVec.ofNat 8 (a.toNat / 2 ^ 8 % 2 ^ 8))
      (BitVec.ofNat 8 (a.toNat / 2 ^ 16 % 2 ^ 8)) (BitVec.ofNat 8 (a.toNat / 2 ^ 24 % 2 ^ 8))
      (BitVec.ofNat 4 (a.toNat / 2 ^ 32 % 2 ^ 4)) := by
  rw [← fieldR8_toNat, ← fieldG8_toNat, ← fieldB8_toNat, ← fieldA8_toNat, ← fieldKeep_toNat]
  simp only [BitVec.ofNat_toNat, BitVec.setWidth_eq]
  rfl

/-- Settles O13: a full group is answered with its pixel, any other group with InvalidInput. -/
theorem packRgba32Result : Obligations.PackRgba32Result := by
  refine ⟨decodeCmd_packRgba32, fun r g b a keep s => ⟨?_, fun h => ?_⟩⟩
  · rintro rfl
    exact completesWith_of_response_ok (response_packRgba32_filled _ r g b a) (groupPixel_toNat r g b a)
  · rw [completes_iff_response_eq]
    exact response_packRgba32_unfilled _ r g b a h

/-! ### `UNPK_RGBA32` -/

/-- The high bytes of the lanes of a pixel, as the result of `UNPK_RGBA32` holds them (R70, R122). -/
def highBytesResult (p : Pixel) : Result :=
  resultY4B (highByte (lane 0 p)) (highByte (lane 1 p)) (highByte (lane 2 p)) (highByte (lane 3 p))

theorem highByte_lane_toNat (n : Nat) (p : Pixel) : (highByte (lane n p)).toNat = laneNat n p.toNat / 2 ^ 8 := by
  rw [highByte_toNat, lane_toNat_eq_laneNat]

theorem highBytesResult_toNat (p : Pixel) : (highBytesResult p).toNat =
    laneNat 0 p.toNat / 2 ^ 8 + laneNat 1 p.toNat / 2 ^ 8 * 2 ^ 8 +
      laneNat 2 p.toNat / 2 ^ 8 * 2 ^ 16 + laneNat 3 p.toNat / 2 ^ 8 * 2 ^ 24 := by
  simp only [highBytesResult, resultY4B_toNat, highByte_lane_toNat]
  ring

theorem bytesOf_highBytesResult (p : Pixel) :
    bytesOf (highBytesResult p) = [highByte (lane 0 p), highByte (lane 1 p), highByte (lane 2 p), highByte (lane 3 p)] :=
  bytesOf_resultY4B _ _ _ _

theorem response_unpkRgba32 (m : OorMode) (p : Pixel) : response m (.unpkRgba32 p) = .ok (highBytesResult p) := rfl

/-- Settles O14: the operand is the pixel, and the result holds the high bytes of its lanes. -/
theorem unpkRgba32Result : Obligations.UnpkRgba32Result :=
  fun p _ => ⟨rfl, completesWith_of_response_ok (response_unpkRgba32 _ p) (highBytesResult_toNat p)⟩

/-! ### `PACK_GRAY` -/

/-- The opaque gray pixel of a sample (R123). -/
def grayPixel (v : Sample) : Pixel := packPixel v v v 0xFFFF#16

theorem grayPixel_toNat (v : Sample) : (grayPixel v).toNat = packed v.toNat v.toNat v.toNat 0xFFFF :=
  packPixel_toNat v v v 0xFFFF#16

theorem response_packGray (m : OorMode) (v : Sample) : response m (.packGray v) = .ok (grayPixel v) := rfl

/-- The field of format S16 as a number (R63). -/
theorem decodeCmd_packGray (a : Operand) : decodeCmd 0x17#5 a = .packGray (BitVec.ofNat 16 (a.toNat % 2 ^ 16)) := by
  rw [← fieldS16_toNat, BitVec.ofNat_toNat, BitVec.setWidth_eq]
  rfl

/-- Settles O15: every sample is answered with its opaque gray pixel. -/
theorem packGrayResult : Obligations.PackGrayResult :=
  ⟨decodeCmd_packGray, fun v _ => completesWith_of_response_ok (response_packGray _ v) (grayPixel_toNat v)⟩

/-! ### How a byte stream is cut (R128) -/

/-- The command of the full group `k` of a stream. -/
def fullGroup (bytes : List Byte) (k : Nat) : Instr :=
  .packRgba32 (byteAt bytes (4 * k)) (byteAt bytes (4 * k + 1)) (byteAt bytes (4 * k + 2)) (byteAt bytes (4 * k + 3)) 0b1111#4

/-- The command of the left-over bytes of a stream, if there are any. -/
def leftOver (bytes : List Byte) : List Instr :=
  if bytes.length % 4 = 0 then [] else
    [.packRgba32 (byteAt bytes (4 * (bytes.length / 4))) (byteAt bytes (4 * (bytes.length / 4) + 1))
      (byteAt bytes (4 * (bytes.length / 4) + 2)) 0 (BitVec.ofNat 4 (2 ^ (bytes.length % 4) - 1))]

section PrependedGroup

variable (r g b a : Byte) (rest : List Byte)

/-- Four bytes before a stream move every byte of it up by four. -/
theorem byteAt_cons_four (i : Nat) : byteAt (r :: g :: b :: a :: rest) (4 + i) = byteAt rest i := by
  rw [Nat.add_comm]
  rfl

theorem length_cons_four_div : (r :: g :: b :: a :: rest).length / 4 = rest.length / 4 + 1 :=
  Nat.add_div_right rest.length (Nat.succ_pos 3)

theorem length_cons_four_mod : (r :: g :: b :: a :: rest).length % 4 = rest.length % 4 :=
  Nat.add_mod_right rest.length 4

theorem fullGroup_cons_four (k : Nat) : fullGroup (r :: g :: b :: a :: rest) (k + 1) = fullGroup rest k := by
  simp only [fullGroup, Nat.mul_succ, Nat.add_comm _ 4, Nat.add_assoc, byteAt_cons_four]

theorem leftOver_cons_four : leftOver (r :: g :: b :: a :: rest) = leftOver rest := by
  simp only [leftOver, length_cons_four_div, length_cons_four_mod, Nat.mul_succ, Nat.add_comm _ 4, Nat.add_assoc, byteAt_cons_four]

end PrependedGroup

/-- The cutting of a stream, by the recursion of `rgba32Commands`: four bytes at the front are the group 0 and move the others up by
one; of fewer than four bytes there is only what is left over. -/
theorem rgba32Commands_eq (bytes : List Byte) :
    rgba32Commands bytes = (List.range (bytes.length / 4)).map (fullGroup bytes) ++ leftOver bytes := by
  induction bytes using rgba32Commands.induct with
  | case1 r g b a rest ih =>
    have first : fullGroup (r :: g :: b :: a :: rest) 0 = .packRgba32 r g b a 0b1111#4 := rfl
    have others : fullGroup (r :: g :: b :: a :: rest) ∘ Nat.succ = fullGroup rest :=
      funext (fullGroup_cons_four r g b a rest)
    rw [rgba32Commands, ih, length_cons_four_div, leftOver_cons_four, List.range_succ_eq_map, List.map_cons, List.map_map,
      first, others, List.cons_append]
  | case2 r g b => simp [rgba32Commands, leftOver, byteAt]
  | case3 r g => simp [rgba32Commands, leftOver, byteAt]
  | case4 r => simp [rgba32Commands, leftOver, byteAt]
  | case5 => rfl

/-- Settles O46: by the recursion of the cutting, one full group after another. -/
theorem streamIsCutIntoGroups : Obligations.StreamIsCutIntoGroups := rgba32Commands_eq

/-! ### `FROM_RGBA32` -/

/-- The pixel of the full group `k` of a stream. -/
def pixelAt (bytes : List Byte) (k : Nat) : Pixel :=
  groupPixel (byteAt bytes (4 * k)) (byteAt bytes (4 * k + 1)) (byteAt bytes (4 * k + 2)) (byteAt bytes (4 * k + 3))

theorem response_fullGroup (m : OorMode) (bytes : List Byte) (k : Nat) :
    response m (fullGroup bytes k) = .ok (pixelAt bytes k) := response_packRgba32_filled m _ _ _ _

/-- The strobes of fewer than four bytes are not all set. -/
theorem strobes_ne_full {r : Nat} (h : r < 4) : BitVec.ofNat 4 (2 ^ r - 1) ≠ 0b1111#4 := by
  revert r; decide

theorem leftOver_of_mod_eq_zero {bytes : List Byte} (h : bytes.length % 4 = 0) : leftOver bytes = [] := if_pos h

/-- Left-over bytes are one command, and it fails (R121, R128). -/
theorem responses_leftOver (m : OorMode) {bytes : List Byte} (h : bytes.length % 4 ≠ 0) :
    (leftOver bytes).map (response m) = [.fail .invalidInput] := by
  rw [leftOver, if_neg h, List.map_singleton, response_packRgba32_unfilled]
  exact strobes_ne_full (Nat.mod_lt _ (by decide))

/-- The responses to the commands of a stream: a pixel for each full group, then what the left-over bytes are answered. -/
theorem responses_rgba32Commands (m : OorMode) (bytes : List Byte) :
    (rgba32Commands bytes).map (response m) =
      ((List.range (bytes.length / 4)).map (pixelAt bytes)).map .ok ++ (leftOver bytes).map (response m) := by
  have pixels : response m ∘ fullGroup bytes = Response.ok ∘ pixelAt bytes := funext (response_fullGroup m bytes)
  rw [rgba32Commands_eq, List.map_append, List.map_map, List.map_map, pixels]

theorem sequenceForm_id (m : OorMode) (cmds : List Instr) : sequenceForm m id cmds = collect (cmds.map (response m)) := rfl

theorem fromRgba32_of_mod_ne_zero (m : OorMode) (width height : Nat) {bytes : List Byte} (h : bytes.length % 4 ≠ 0) :
    fromRgba32 m width height bytes = .error .invalidInput := by
  rw [fromRgba32, sequenceForm_id, responses_rgba32Commands, responses_leftOver m h, collect_first_fail]

theorem fromRgba32_of_mod_eq_zero (m : OorMode) (width height : Nat) {bytes : List Byte} (h : bytes.length % 4 = 0) :
    fromRgba32 m width height bytes = .ok ⟨width, height, (List.range (bytes.length / 4)).map (pixelAt bytes)⟩ := by
  rw [fromRgba32, sequenceForm_id, responses_rgba32Commands, leftOver_of_mod_eq_zero h, List.map_nil, List.append_nil, collect_map_ok]

/-- Settles O47: without left-over bytes every response is the pixel of its group, and with them the last response fails. -/
theorem fromRgba32Outcome : Obligations.FromRgba32Outcome := by
  refine fun m width height bytes =>
    ⟨fromRgba32_of_mod_ne_zero m width height, fun h => ⟨_, fromRgba32_of_mod_eq_zero m width height h, ?_⟩, ?_⟩
  · rw [List.map_map]
    exact List.map_congr_left fun k _ => groupPixel_toNat _ _ _ _
  · rintro rfl
    rfl

/-! ### `TO_RGBA32` and `FROM_GRAYSCALE` -/

/-- A sequence form of an operation that is always answered OK gives the results in the order of the operands (R81). -/
theorem sequenceForm_of_response_ok {α : Type} {m : OorMode} {op : α → Instr} {f : α → Result}
    (h : ∀ x, response m (op x) = .ok (f x)) (xs : List α) : sequenceForm m op xs = .ok (xs.map f) := by
  rw [sequenceForm, collect_eq_ok_iff, List.map_map]
  exact List.map_congr_left fun x _ => h x

/-- `TO_RGBA32` looks at the pixels alone (R126). -/
theorem toRgba32_eq (m : OorMode) (buffer : Buffer Pixel) :
    toRgba32 m buffer = .ok (buffer.elems.flatMap fun p => bytesOf (highBytesResult p)) := by
  rw [toRgba32, sequenceForm_of_response_ok (response_unpkRgba32 m), ← List.flatMap_map]

/-- Settles O48: each pixel gives four bytes, the high bytes of its lanes. -/
theorem toRgba32Outcome : Obligations.ToRgba32Outcome := by
  refine fun m buffer => ⟨_, toRgba32_eq m buffer, ?_, ?_⟩
  · have four_bytes (p : Pixel) : (bytesOf (highBytesResult p)).length = 4 := rfl
    simp only [List.length_flatMap, four_bytes, List.map_const', List.sum_replicate, smul_eq_mul, Nat.mul_comm]
  · simp only [List.map_flatMap, bytesOf_highBytesResult, List.map_cons, List.map_nil, highByte_lane_toNat]

/-- `FROM_GRAYSCALE` copies the width and the height (R127). -/
theorem fromGrayscale_eq (m : OorMode) (buffer : Buffer Sample) :
    fromGrayscale m buffer = .ok ⟨buffer.width, buffer.height, buffer.elems.map grayPixel⟩ := by
  rw [fromGrayscale, sequenceForm_of_response_ok (response_packGray m)]

/-- Settles O49: each sample gives its opaque gray pixel. -/
theorem fromGrayscaleOutcome : Obligations.FromGrayscaleOutcome := by
  refine fun m buffer => ⟨_, fromGrayscale_eq m buffer, ?_⟩
  rw [List.map_map]
  exact List.map_congr_left fun v _ => grayPixel_toNat v

end Sys2Proof.Buffers

/-! PROOFS. Widening (`42_remap_widen.md`): the replication formula on numbers, then the results of the container and the byte
widenings, and the way back by narrowing. -/

namespace Sys2Proof.Widening

open Sys2Proof.Machine Sys2Proof.Claims Sys2Proof.Encoding Sys2Proof.Buffers

/-! ### The operand fields as numbers -/

theorem fieldS16_eq_ofNat (a : Operand) : fieldS16 a = BitVec.ofNat 16 (a.toNat % 2 ^ 16) := by
  rw [← fieldS16_toNat, BitVec.ofNat_toNat, BitVec.setWidth_eq]

theorem fieldS8_eq_ofNat (a : Operand) : fieldS8 a = BitVec.ofNat 8 (a.toNat % 2 ^ 8) := by
  rw [← fieldS8_toNat, BitVec.ofNat_toNat, BitVec.setWidth_eq]

/-! ### The replication formula on numbers (R150) -/

theorem widen_toNat_eq_replicated (S T : Depth) (v : Sample) :
    (widen S T v).toNat = replicated S.bits T.bits v.toNat := widen_toNat S T v

/-- Every depth fits the container (R23). -/
theorem bits_le_sixteen (T : Depth) : T.bits ≤ 16 := by
  cases T <;> decide

/-- No depth is more than twice another, so the formula's right shift is by `2S - T` (R151). -/
theorem bits_le_two_mul_bits (S T : Depth) : T.bits ≤ 2 * S.bits := by
  cases S <;> cases T <;> decide

section InRange

variable {S T : Depth} {v : Nat} (hST : S.bits < T.bits) (hv : v < 2 ^ S.bits)
include hST hv

/-- The replicated bits fill the `T - S` low bits and no more (R150). -/
theorem replicated_bits_lt : v / 2 ^ (2 * S.bits - T.bits) < 2 ^ (T.bits - S.bits) := by
  have exponents : 2 * S.bits - T.bits + (T.bits - S.bits) = S.bits := by
    have := bits_le_two_mul_bits S T
    omega
  apply Nat.div_lt_of_lt_mul
  rwa [← pow_add, exponents]

/-- A sample shifted to the top of the depth `T`, with anything in the `T - S` low bits, is in range for `T` (R168). -/
theorem shifted_add_lt {r : Nat} (hr : r < 2 ^ (T.bits - S.bits)) : v * 2 ^ (T.bits - S.bits) + r < 2 ^ T.bits := by
  calc v * 2 ^ (T.bits - S.bits) + r
      < (v + 1) * 2 ^ (T.bits - S.bits) := by rw [Nat.succ_mul]; exact Nat.add_lt_add_left hr _
    _ ≤ 2 ^ S.bits * 2 ^ (T.bits - S.bits) := Nat.mul_le_mul_right _ hv
    _ = 2 ^ T.bits := by rw [← pow_add, Nat.add_sub_cancel' hST.le]

/-- On in-range samples nothing leaves the container and the two terms do not overlap: the OR is the sum (R150). -/
theorem replicated_eq_sum :
    replicated S.bits T.bits v = v * 2 ^ (T.bits - S.bits) + v / 2 ^ (2 * S.bits - T.bits) := by
  have no_overflow : v * 2 ^ (T.bits - S.bits) < 2 ^ 16 :=
    calc v * 2 ^ (T.bits - S.bits) < 2 ^ T.bits := shifted_add_lt hST hv (Nat.two_pow_pos _)
      _ ≤ 2 ^ 16 := Nat.pow_le_pow_right Nat.two_pos (bits_le_sixteen T)
  rw [replicated, Nat.mod_eq_of_lt no_overflow, ← Nat.shiftLeft_eq,
    Nat.shiftLeft_add_eq_or_of_lt (replicated_bits_lt hST hv)]

/-- The result of widening an in-range sample is in range for the target depth (R168). -/
theorem replicated_lt : replicated S.bits T.bits v < 2 ^ T.bits := by
  rw [replicated_eq_sum hST hv]
  exact shifted_add_lt hST hv (replicated_bits_lt hST hv)

/-- Truncation drops exactly the replicated bits (R165). -/
theorem truncated_replicated : truncated T.bits S.bits (replicated S.bits T.bits v) = v := by
  rw [truncated, replicated_eq_sum hST hv, Nat.add_comm, Nat.add_mul_div_right _ _ (Nat.two_pow_pos _),
    Nat.div_eq_of_lt (replicated_bits_lt hST hv), Nat.zero_add]

end InRange

/-! ### The container conversions (R152) -/

/-- A command that decodes with the sample of format S16 and answers a conversion of it follows the rule of a container conversion with
the number its formula gives. -/
theorem containerRule_of_response {op : Op} {mk : Sample → Instr} {S : Depth} {formula : Sample → Sample} {f : Nat → Nat}
    (hdecode : ∀ a, decodeCmd op a = mk (fieldS16 a))
    (hresponse : ∀ m v, response m (mk v) = .ok (resultY16 (convert m op S v (formula v))))
    (hf : ∀ v, (formula v).toNat = f v.toNat) : ContainerRule op mk S.bits f := by
  refine ⟨fun a => by rw [hdecode, fieldS16_eq_ofNat], fun v s => ⟨fun hout => ?_, fun hin => ?_⟩⟩
  · refine completesWith_of_response_ok (hresponse _ v) ?_
    rw [convert_oor op _ hout, resultY16_toNat]
  · refine completesWith_of_response_ok (hresponse _ v) ?_
    rw [convert_formula op _ hin, resultY16_toNat, hf]

/-- Settles O8: each of the six commands answers the conversion of its sample by the replication formula of its two depths. -/
theorem containerWideningResults : Obligations.ContainerWideningResults :=
  ⟨containerRule_of_response (S := .d8) (fun _ => rfl) (fun _ _ => rfl) (widen_toNat_eq_replicated .d8 .d10),
    containerRule_of_response (S := .d8) (fun _ => rfl) (fun _ _ => rfl) (widen_toNat_eq_replicated .d8 .d12),
    containerRule_of_response (S := .d8) (fun _ => rfl) (fun _ _ => rfl) (widen_toNat_eq_replicated .d8 .d16),
    containerRule_of_response (S := .d10) (fun _ => rfl) (fun _ _ => rfl) (widen_toNat_eq_replicated .d10 .d12),
    containerRule_of_response (S := .d10) (fun _ => rfl) (fun _ _ => rfl) (widen_toNat_eq_replicated .d10 .d16),
    containerRule_of_response (S := .d12) (fun _ => rfl) (fun _ _ => rfl) (widen_toNat_eq_replicated .d12 .d16)⟩

/-! ### The byte widenings (R159, R160) -/

/-- The byte in its container is the same number, so it is widened by the same formula (R162). -/
theorem widen_byte_toNat (T : Depth) (b : Byte) :
    (widen .d8 T (b.setWidth 16)).toNat = replicated 8 T.bits b.toNat := by
  rw [widen_toNat_eq_replicated, BitVec.toNat_setWidth_of_le (by decide)]
  rfl

theorem completesWith_widen_byte {T : Depth} {i : Instr} {s : State} {b : Byte}
    (h : response s.oorMode i = .ok (resultY16 (widen .d8 T (b.setWidth 16)))) :
    CompletesWith i s (replicated 8 T.bits b.toNat) :=
  completesWith_of_response_ok h (by rw [resultY16_toNat, widen_byte_toNat])

/-- A byte is always in range for depth 8. -/
theorem replicated_byte_lt {T : Depth} (h : 8 < T.bits) (b : Byte) : replicated 8 T.bits b.toNat < 2 ^ T.bits :=
  replicated_lt (S := .d8) h b.isLt

/-- Settles O10: the two commands decode with the byte of format S8 and answer it widened by the formula for depth 8. -/
theorem byteWideningResults : Obligations.ByteWideningResults := by
  refine ⟨fun a => ?_, fun b s => ?_⟩
  · rw [← fieldS8_eq_ofNat]
    exact ⟨rfl, rfl⟩
  · exact ⟨completesWith_widen_byte (T := .d10) rfl, replicated_byte_lt (T := .d10) (by decide) b,
      completesWith_widen_byte (T := .d12) rfl, replicated_byte_lt (T := .d12) (by decide) b⟩

/-! ### Widening and narrowing back (R165) -/

/-- On in-range samples a conversion answers its formula in either `OOR_MODE` (R152). -/
theorem response_of_inRange {m : OorMode} {i : Instr} {op : Op} {S : Depth} {v x : Sample}
    (h : response m i = .ok (resultY16 (convert m op S v x))) (hv : v.toNat < 2 ^ S.bits) :
    response m i = .ok (resultY16 x) := by
  rw [h, convert_formula op x fun out_of_range => out_of_range.1.not_gt hv]

/-- The commands `w` and `n` widen from the depth `S` to the larger depth `T` and narrow back: what they answer for in-range samples, in
either `OOR_MODE`. -/
structure WidensAndNarrows (S T : Depth) (w n : Sample → Instr) : Prop where
  lt : S.bits < T.bits
  widens : ∀ (m : OorMode) (v : Sample), v.toNat < 2 ^ S.bits → response m (w v) = .ok (resultY16 (widen S T v))
  narrows : ∀ (m : OorMode) (v : Sample), v.toNat < 2 ^ T.bits → response m (n v) = .ok (resultY16 (narrow T S v))

/-- The six pairs are pairs of such commands; a narrowing from depth 16 answers its formula for every sample. -/
theorem widensAndNarrows_of_mem {p : Nat × Nat × (Sample → Instr) × (Sample → Instr)} (hp : p ∈ widenNarrowPairs) :
    ∃ S T : Depth, p.1 = S.bits ∧ p.2.1 = T.bits ∧ WidensAndNarrows S T p.2.2.1 p.2.2.2 := by
  simp only [widenNarrowPairs, List.mem_cons, List.not_mem_nil, or_false] at hp
  obtain rfl | rfl | rfl | rfl | rfl | rfl := hp
  · exact ⟨.d8, .d10, rfl, rfl, by decide, fun _ _ => response_of_inRange rfl, fun _ _ => response_of_inRange rfl⟩
  · exact ⟨.d8, .d12, rfl, rfl, by decide, fun _ _ => response_of_inRange rfl, fun _ _ => response_of_inRange rfl⟩
  · exact ⟨.d8, .d16, rfl, rfl, by decide, fun _ _ => response_of_inRange rfl, fun _ _ _ => rfl⟩
  · exact ⟨.d10, .d12, rfl, rfl, by decide, fun _ _ => response_of_inRange rfl, fun _ _ => response_of_inRange rfl⟩
  · exact ⟨.d10, .d16, rfl, rfl, by decide, fun _ _ => response_of_inRange rfl, fun _ _ _ => rfl⟩
  · exact ⟨.d12, .d16, rfl, rfl, by decide, fun _ _ => response_of_inRange rfl, fun _ _ _ => rfl⟩

theorem narrow_widen {S T : Depth} (hST : S.bits < T.bits) {v : Sample} (hv : v.toNat < 2 ^ S.bits) :
    narrow T S (widen S T v) = v := by
  apply BitVec.eq_of_toNat_eq
  rw [narrow_toNat, widen_toNat_eq_replicated]
  exact truncated_replicated hST hv

theorem highByte_byteTo16 (b : Byte) : highByte (byteTo16 b) = b := by
  apply BitVec.eq_of_toNat_eq
  rw [highByte_toNat, byteTo16_toNat]
  omega

/-- Settles O35: the widened sample is in range for the narrowing, which drops the replicated bits; and the high byte of a replicated
byte is the byte. -/
theorem widenThenNarrow : Obligations.WidenThenNarrow := by
  refine ⟨fun p hp m v hv => ?_, highByte_byteTo16⟩
  obtain ⟨S, T, hS, -, pair⟩ := widensAndNarrows_of_mem hp
  rw [hS] at hv
  have widened_in_range : (widen S T v).toNat < 2 ^ T.bits := by
    rw [widen_toNat_eq_replicated]
    exact replicated_lt pair.lt hv
  refine ⟨_, pair.widens m v hv, _, ?_, resultY16_toNat v⟩
  rw [sampleOf_resultY16, pair.narrows m _ widened_in_range, narrow_widen pair.lt hv]

end Sys2Proof.Widening

/-! PROOFS. Narrowing (`43_remap_narrow.md`): the truncation formula on numbers, then the results of the six narrowings. -/

namespace Sys2Proof.Narrowing

open Sys2Proof.Machine Sys2Proof.Claims Sys2Proof.Buffers Sys2Proof.Widening

/-- Truncation on numbers (R180). -/
theorem narrow_toNat_eq_truncated (S T : Depth) (v : Sample) :
    (narrow S T v).toNat = truncated S.bits T.bits v.toNat := narrow_toNat S T v

/-- A command that decodes with the sample of format S16 and answers a formula of it in either `OOR_MODE` follows the rule of a total
conversion with the number its formula gives. -/
theorem totalRule_of_response {op : Op} {mk : Sample → Instr} {formula : Sample → Sample} {f : Nat → Nat}
    (hdecode : ∀ a, decodeCmd op a = mk (fieldS16 a))
    (hresponse : ∀ m v, response m (mk v) = .ok (resultY16 (formula v)))
    (hf : ∀ v, (formula v).toNat = f v.toNat) : TotalRule op mk f := by
  refine ⟨fun a => by rw [hdecode, fieldS16_eq_ofNat], fun v s => ?_⟩
  refine completesWith_of_response_ok (hresponse _ v) ?_
  rw [resultY16_toNat, hf]

/-- Settles O9: the narrowings from depths 10 and 12 answer the conversion of their sample by truncation, those from depth 16 its
truncation without a look at `OOR_MODE`. -/
theorem narrowingResults : Obligations.NarrowingResults :=
  ⟨containerRule_of_response (S := .d10) (fun _ => rfl) (fun _ _ => rfl) (narrow_toNat_eq_truncated .d10 .d8),
    containerRule_of_response (S := .d12) (fun _ => rfl) (fun _ _ => rfl) (narrow_toNat_eq_truncated .d12 .d8),
    containerRule_of_response (S := .d12) (fun _ => rfl) (fun _ _ => rfl) (narrow_toNat_eq_truncated .d12 .d10),
    totalRule_of_response (fun _ => rfl) (fun _ _ => rfl) (narrow_toNat_eq_truncated .d16 .d8),
    totalRule_of_response (fun _ => rfl) (fun _ _ => rfl) (narrow_toNat_eq_truncated .d16 .d10),
    totalRule_of_response (fun _ => rfl) (fun _ _ => rfl) (narrow_toNat_eq_truncated .d16 .d12)⟩

end Sys2Proof.Narrowing

/-! PROOFS. Faults are precise and not sticky (`60_exceptions.md` R206): accepting a command adds its response to those of the run, the
rest of an edge leaves the responses of the run as they are, and no number of edges changes `OOR_MODE`, the one thing besides the command
that a response depends on. -/

namespace Sys2Proof.Faults

open Sys2Proof.Machine Sys2Proof.Claims Sys2Proof.Encoding

/-! ### The responses of the run -/

/-- The response to an accepted command comes after those of the commands before it (R46). -/
@[simp] theorem accept_allResponses (s : State) (i : Instr) (r : Response) :
    (s.accept i r).allResponses = s.allResponses ++ [r] := by
  simp [State.allResponses]

/-- The end of an edge takes a response or not; it adds none, loses none and changes none. -/
@[simp] theorem endEdge_allResponses (s : State) : s.endEdge.allResponses = s.allResponses := s.deliver_responses

/-! ### What every run keeps -/

/-- `OOR_MODE` is fixed for the block (R6): no edge writes it, a reset edge included. -/
theorem run_oorMode {k : Nat} {s v : State} (h : run k s = .next v) : v.oorMode = s.oorMode := by
  induction k generalizing s with
  | zero => exact congrArg State.oorMode (Host.Outcome.next.inj h).symm
  | succ k ih =>
    rw [run, run_succ] at h
    exact (ih h).trans s.afterEdge_oorMode

/-! ### A command after another -/

/-- Whatever command comes first, the one after it is accepted with the response it has in the state before both: of that state a
response depends on `OOR_MODE` alone (R47), which the edge between them keeps. -/
theorem exec_after_edge (i j : Instr) (r : Response) (s : State) :
    exec j (s.accept i r).endEdge = .next ((s.accept i r).endEdge.accept j (response s.oorMode j)) := by
  rw [exec_eq_accept, State.endEdge_oorMode, State.accept_oorMode]

/-- After the edge of one command and any number of further edges, a command completes with the response it has when the first has not
been issued. -/
theorem completes_after_run {i j : Instr} {r : Response} {k : Nat} {s v : State}
    (h : run k (s.accept i r).endEdge = .next v) : Completes j v (response s.oorMode j) := by
  rw [completes_iff_response_eq, run_oorMode h, State.endEdge_oorMode, State.accept_oorMode]

/-- Settles O19: each of the two commands is accepted with its own response; what the edge between them may do, taking a response and
bringing up the next pins, neither response depends on. -/
theorem faultsAreNotSticky : Obligations.FaultsAreNotSticky := by
  intro i j s
  refine ⟨_, _, response s.oorMode i, response s.oorMode j, exec_eq_accept i s, exec_after_edge i j _ s,
    (completes_iff_response_eq ..).2 rfl, (completes_iff_response_eq ..).2 rfl, ?responses, fun _ _ => completes_after_run,
    ?allResponses, ?queue, ?history, rfl, ?inputs, ?oorMode, ?cycle⟩
  case responses => rw [endEdge_allResponses, accept_allResponses]
  case allResponses => simp
  case queue => rw [State.accept_inFlight, State.endEdge_cycle, State.accept_cycle]
  case history => simp
  case inputs | oorMode | cycle => simp

end Sys2Proof.Faults

/-! PROOFS. Reset (`70_reset_and_hazards.md` R230): the output pins while `rst` = 1, and what the channels show once nothing is in
flight, which is how a reset edge leaves the block. -/

namespace Sys2Proof.Reset

open Sys2Proof.Machine

/-- While `rst` = 1 no response is on the response channel, whatever is owed: the one output pin that U9 does not leave free. -/
theorem outputs_rspValid_of_rst {s : State} (h : s.pins.rst = true) : s.outputs.rspValid = false := by
  rw [State.outputs, if_pos h]

/-- With nothing in flight there is no response to present (R46). -/
theorem rspValid_of_inFlight_eq_nil {s : State} (h : s.inFlight = []) : s.rspValid = false := by
  have none_presented : s.presented = none := by rw [State.presented, h]
  rw [State.rspValid, none_presented, Option.isSome_none]

/-- With nothing in flight the block is ready, whatever it does while it is busy (R31; log 5). -/
theorem cmdReady_of_inFlight_eq_nil {s : State} (h : s.inFlight = []) : s.cmdReady = true := by
  rw [State.cmdReady, h, List.isEmpty_nil, Bool.true_or]

theorem step_of_rst {s : State} (h : s.pins.rst = true) : step s = .next s.resetEdge := by
  rw [step_eq_afterEdge, State.afterEdge_of_rst h]

/-- Settles O28: the step is a reset edge, which empties the queue; the two channels after it are those of a block with nothing in
flight. -/
theorem resetEdgeEmptiesTheBlock : Obligations.ResetEdgeEmptiesTheBlock := by
  intro s hrst
  have emptied : s.resetEdge.inFlight = [] := s.resetEdge_inFlight
  exact ⟨outputs_rspValid_of_rst hrst, s.resetEdge, step_of_rst hrst, emptied, rspValid_of_inFlight_eq_nil emptied,
    cmdReady_of_inFlight_eq_nil emptied, s.resetEdge_inputs⟩

end Sys2Proof.Reset

/-! PROOFS. The command word (`30_encoding.md` sections 1, 2 and 4): decoding what the encoder writes, encoding what the decoder reads, and
which commands have a result (`60_exceptions.md` section 1). -/

namespace Sys2Proof.CommandWord

open Sys2Proof.Machine Sys2Proof.Claims Sys2Proof.Encoding

/-! ### Decoding what the encoder writes -/

/-- The fields that the decoder reads from the operand word of an instruction are the instruction's own, format by format. -/
theorem decodeCmd_encode (i : Instr) : decodeCmd (encodeOp i) (encodeOperand i) = i := by
  cases i with
  | w8_10 s | w8_12 s | w8_16 s | w10_12 s | w10_16 s | w12_16 s | n10_8 s | n12_8 s | n12_10 s | n16_8 s | n16_10 s | n16_12 s
  | packGray s => simp [encodeOp, encodeOperand, decodeCmd, fieldS16_layS16]
  | wb8_10 b | wb8_12 b => simp [encodeOp, encodeOperand, decodeCmd, fieldS8_layS8]
  | pack r g b a =>
    simp [encodeOp, encodeOperand, decodeCmd, fieldRed_layQ16, fieldGreen_layQ16, fieldBlue_layQ16, fieldAlpha_layQ16]
  | packRgba32 r g b a k =>
    simp [encodeOp, encodeOperand, decodeCmd, fieldR8_layB4K, fieldG8_layB4K, fieldB8_layB4K, fieldA8_layB4K, fieldKeep_layB4K]
  | unpkRgba32 p | unpkR p | unpkG p | unpkB p | unpkA p => rfl
  | reserved00 | reserved05 | reserved0A | reserved0F | reserved10 | reserved13 | reserved1C | reserved1D | reserved1E
  | reserved1F => rfl

theorem decodeWord_encode (i : Instr) : decodeWord (encode i) = i := by
  rw [encode, decodeWord_append, decodeCmd_encode]

/-- Every command word is read as a number as it is read as a word (R60). -/
theorem decodeNat_toNat (w : CmdWord) : decodeNat w.toNat = .ok (decodeWord w) := by
  rw [decodeNat, if_pos w.isLt, BitVec.ofNat_toNat, BitVec.setWidth_eq]

/-- Settles O1: the parts of the word are the code and the operand word, whose fields are read back. -/
theorem decodeOfEncode : Obligations.DecodeOfEncode := fun i =>
  ⟨decodeWord_encode i, by rw [decodeNat_toNat, decodeWord_encode]⟩

/-! ### Encoding what the decoder reads -/

/-- Masking with ones in the low `n` bits on numbers. -/
theorem toNat_and_ones (a : Operand) {mask : Operand} {n : Nat} (h : mask.toNat = 2 ^ n - 1) :
    (a &&& mask).toNat = a.toNat % 2 ^ n := by
  rw [BitVec.toNat_and, h, Nat.and_two_pow_sub_one_eq_mod]

theorem layS16_fieldS16 (a : Operand) : layS16 (fieldS16 a) = a &&& 0x000000000000FFFF#64 :=
  BitVec.eq_of_toNat_eq (by rw [layS16_toNat, fieldS16_toNat, toNat_and_ones a (n := 16) rfl])

theorem layS8_fieldS8 (a : Operand) : layS8 (fieldS8 a) = a &&& 0x00000000000000FF#64 :=
  BitVec.eq_of_toNat_eq (by rw [layS8_toNat, fieldS8_toNat, toNat_and_ones a (n := 8) rfl])

theorem layQ16_fields (a : Operand) :
    layQ16 (fieldRed a) (fieldGreen a) (fieldBlue a) (fieldAlpha a) = a &&& 0xFFFFFFFFFFFFFFFF#64 := by
  apply BitVec.eq_of_toNat_eq
  rw [layQ16_toNat, fieldRed_toNat, fieldGreen_toNat, fieldBlue_toNat, fieldAlpha_toNat, toNat_and_ones a (n := 64) rfl]
  omega

theorem layPX_fieldPX (a : Operand) : layPX (fieldPX a) = a &&& 0xFFFFFFFFFFFFFFFF#64 :=
  (BitVec.and_allOnes (x := a)).symm

theorem layB4K_fields (a : Operand) :
    layB4K (fieldR8 a) (fieldG8 a) (fieldB8 a) (fieldA8 a) (fieldKeep a) = a &&& 0x0000000FFFFFFFFF#64 := by
  apply BitVec.eq_of_toNat_eq
  rw [layB4K_toNat, fieldR8_toNat, fieldG8_toNat, fieldB8_toNat, fieldA8_toNat, fieldKeep_toNat, toNat_and_ones a (n := 36) rfl]
  omega

/-- Of an operand the decoder reads the bits that the format of the instruction's code names, and the encoder writes them where they
were. -/
theorem encodeOperand_decodeCmd_of_instr (i : Instr) (a : Operand) :
    encodeOperand (decodeCmd (encodeOp i) a) = a &&& namedBits (encodeOp i) := by
  cases i with
  | w8_10 _ | w8_12 _ | w8_16 _ | w10_12 _ | w10_16 _ | w12_16 _ | n10_8 _ | n12_8 _ | n12_10 _ | n16_8 _ | n16_10 _ | n16_12 _
  | packGray _ => exact layS16_fieldS16 a
  | wb8_10 _ | wb8_12 _ => exact layS8_fieldS8 a
  | pack _ _ _ _ => exact layQ16_fields a
  | packRgba32 _ _ _ _ _ => exact layB4K_fields a
  | unpkRgba32 _ | unpkR _ | unpkG _ | unpkB _ | unpkA _ => exact layPX_fieldPX a
  | reserved00 | reserved05 | reserved0A | reserved0F | reserved10 | reserved13 | reserved1C | reserved1D | reserved1E
  | reserved1F => exact BitVec.and_zero.symm

/-- Every code is the code of some instruction, so the split over instructions is one over codes. -/
theorem encodeOperand_decodeCmd (op : Op) (a : Operand) : encodeOperand (decodeCmd op a) = a &&& namedBits op := by
  have h := encodeOperand_decodeCmd_of_instr (decodeCmd op a) a
  rwa [encodeOp_decodeCmd] at h

theorem encode_decodeCmd (op : Op) (a : Operand) : encode (decodeCmd op a) = op ++ (a &&& namedBits op) := by
  rw [encode, encodeOp_decodeCmd, encodeOperand_decodeCmd]

/-- Settles O2: the code is kept, and of the operand the named bits. -/
theorem encodeOfDecode : Obligations.EncodeOfDecode := fun op a => by
  rw [decodeWord_append, encode_decodeCmd]

/-- Settles O4: the two commands encode to the same word, from which both are decoded again. -/
theorem ignoredBitsDoNotMatter : Obligations.IgnoredBitsDoNotMatter := by
  intro op a b h
  have same_word : encode (decodeCmd op a) = encode (decodeCmd op b) := by rw [encode_decodeCmd, encode_decodeCmd, h]
  rw [← decodeWord_encode (decodeCmd op a), same_word, decodeWord_encode]

/-- Settles O7, word by word. -/
theorem sampleWordsDecode : Obligations.SampleWordsDecode :=
  ⟨by decide, by decide, by decide, by decide, by decide, by decide, by decide, by decide⟩

/-! ### Which commands fail (R200 to R203) -/

/-- A command with a result names an operation and fills its group. -/
theorem response_isOk_iff (m : OorMode) (i : Instr) :
    (∃ y, response m i = .ok y) ↔ i.named = true ∧ i.groupFilled = true := by
  refine ⟨?_, fun ⟨hn, hf⟩ => response_of_named_of_groupFilled m hn hf⟩
  rintro ⟨y, hy⟩
  constructor
  · by_contra hn
    simp [response_of_not_named m (eq_false_of_ne_true hn)] at hy
  · by_contra hf
    simp [response_of_not_groupFilled m (eq_false_of_ne_true hf)] at hy

/-- InvalidInput is the response to the groups that are not filled, and to no others (R202). -/
theorem response_eq_invalidInput_iff (m : OorMode) (i : Instr) : response m i = .fail .invalidInput ↔ i.groupFilled = false := by
  refine ⟨fun h => ?_, response_of_not_groupFilled m⟩
  by_contra hf
  rw [Bool.not_eq_false] at hf
  cases hn : i.named with
  | false => simp [response_of_not_named m hn] at h
  | true =>
    obtain ⟨y, hy⟩ := response_of_named_of_groupFilled m hn hf
    simp [hy] at h

/-- Settles O17: a command completes with its response alone, and which response that is the two checks say. -/
theorem whichCommandsFail : Obligations.WhichCommandsFail := by
  intro i s
  simp only [completes_iff_response_eq]
  exact ⟨response_eq_illegalOp_iff _ i, response_eq_invalidInput_iff _ i, response_isOk_iff _ i⟩

/-- Settles O18: both states answer with the function of the command and of the `OOR_MODE` they share (R47). -/
theorem responseDependsOnCommandAlone : Obligations.ResponseDependsOnCommandAlone := by
  intro op a s t same_mode
  refine ⟨response s.oorMode (decodeCmd op a), (completes_iff_response_eq ..).2 rfl, (completes_iff_response_eq ..).2 ?_⟩
  rw [same_mode]

end Sys2Proof.CommandWord

/-! PROOFS. Edges and runs (`30_encoding.md` section 1, `20_memory.md` sections 4 and 5, `70_reset_and_hazards.md` sections 1, 4 and 5):
what one edge accepts and takes, what the output pins show, that every edge keeps `Consistent`, and what follows for runs. -/

namespace Sys2Proof.Edges

open Sys2Proof.Machine Sys2Proof.Claims Sys2Proof.Encoding Sys2Proof.Faults Sys2Proof.Reset

/-! ### Reset -/

/-- A block that has been reset with no command in flight meets the invariant (P1). -/
theorem consistent_of_launched {s : State} (h : s.launched) : s.Consistent := by
  obtain ⟨no_queue, no_command, no_response⟩ := h
  constructor <;> simp [State.allResponses, no_queue, no_command, no_response]

theorem reset_launched : State.reset.launched := ⟨rfl, rfl, rfl⟩

theorem resetEdge_launched (s : State) : s.resetEdge.launched := ⟨rfl, rfl, rfl⟩

/-- Settles O20: the fields are given, and the channels are those of a block with nothing in flight. -/
theorem resetState : Obligations.ResetState :=
  ⟨rfl, rspValid_of_inFlight_eq_nil rfl, cmdReady_of_inFlight_eq_nil rfl, rfl, reset_launched⟩

/-- Settles O31. -/
theorem consistentAtReset : Obligations.ConsistentAtReset := consistent_of_launched reset_launched

/-- Settles O29: the step is a reset edge. -/
theorem resetEdgeStartsNewRun : Obligations.ResetEdgeStartsNewRun := fun s hrst =>
  ⟨s.resetEdge, step_of_rst hrst, resetEdge_launched s, s.resetEdge_oorMode⟩

/-- Settles O30: whichever kind of edge it is, there is a state after it. -/
theorem stepNeverStops : Obligations.StepNeverStops := fun s =>
  ⟨s.afterEdge, step_eq_afterEdge s, s.afterEdge_oorMode, s.afterEdge_inputs⟩

/-! ### The command channel at one edge -/

theorem step_of_not_rst {s : State} (h : s.pins.rst = false) : step s = .next s.afterAccept.endEdge := by
  rw [step_eq_afterEdge, State.afterEdge_of_not_rst h]

theorem cmdTransfer_iff {s : State} (h : s.pins.rst = false) :
    s.cmdTransfer = true ↔ s.pins.cmdValid = true ∧ s.cmdReady = true := by
  simp [State.cmdTransfer, h]

theorem afterAccept_of_cmdTransfer {s : State} (h : s.cmdTransfer = true) :
    s.afterAccept = s.accept s.fetched (response s.oorMode s.fetched) := if_pos h

theorem afterAccept_of_not_cmdTransfer {s : State} (h : ¬ s.cmdTransfer = true) : s.afterAccept = s := if_neg h

/-- Settles O21: the transferred command is accepted with its response, which is what `exec` does, and the edge ends. -/
theorem stepRunsTransferredCommand : Obligations.StepRunsTransferredCommand := by
  rintro s i hrst hvalid hready rfl
  refine ⟨s.afterAccept, ?_, step_of_not_rst hrst⟩
  rw [afterAccept_of_cmdTransfer ((cmdTransfer_iff hrst).2 ⟨hvalid, hready⟩)]
  exact exec_eq_accept s.fetched s

/-- A number that decodes is a command word, and the pins that present it carry its code and its operand (log 11). -/
theorem decodeCmd_commandPins {w : Nat} {i : Instr} (h : (decodeNat w).toOption = some i) :
    decodeCmd (commandPins w).cmdOp (commandPins w).cmdA = i := by
  unfold decodeNat at h
  split at h
  · exact Option.some.inj h
  · simp [Except.toOption] at h

/-- Settles O22: the presented word is a command on the pins of a ready block, so it is transferred at the next edge. -/
theorem presentedWordIsExecuted : Obligations.PresentedWordIsExecuted := fun s nbits w i hdecode =>
  stepRunsTransferredCommand (s.withFetchWord nbits w) i rfl rfl (cmdReady_of_inFlight_eq_nil rfl) (decodeCmd_commandPins hdecode)

/-- The end of an edge takes the oldest command from the queue or leaves it as it is. -/
theorem endEdge_inFlight_suffix (s : State) : s.endEdge.inFlight <:+ s.inFlight := by
  rw [State.endEdge_inFlight]
  obtain ⟨kept, -⟩ | ⟨e, q, -, hq, -, taken⟩ := s.deliver_cases
  · rw [kept]
  · rw [taken, hq]
    exact List.suffix_cons e q

/-- Settles O23: nothing joins the queue or the history, and the end of the edge adds nothing to either. -/
theorem noTransferAcceptsNothing : Obligations.NoTransferAcceptsNothing := by
  intro s hrst no_transfer
  refine ⟨s.endEdge, ?_, s.endEdge_accepted, endEdge_inFlight_suffix s⟩
  rw [step_of_not_rst hrst, afterAccept_of_not_cmdTransfer (mt (cmdTransfer_iff hrst).1 no_transfer)]

/-! ### The response channel at one edge -/

/-- With `rsp_ready` = 1 and a due response the host takes the response of the oldest command (R62). -/
theorem deliver_of_due {s : State} {e : InFlight} {q : List InFlight} (hready : s.pins.rspReady = true) (hq : s.inFlight = e :: q)
    (hdue : s.due e = true) : s.deliver = { s with inFlight := q, answered := s.answered ++ [e.rsp] } := by
  have presented : s.presented = some e.rsp := (s.presented_eq_some _).2 ⟨e, q, hq, hdue, rfl⟩
  simp [State.deliver, hready, presented, hq]

theorem deliver_of_no_transfer {s : State} (h : ¬ (s.pins.rspReady = true ∧ s.rspValid = true)) : s.deliver = s := by
  obtain ⟨kept, -⟩ | ⟨e, q, hready, hq, hdue, -⟩ := s.deliver_cases
  · exact kept
  · have presented : s.presented = some e.rsp := (s.presented_eq_some _).2 ⟨e, q, hq, hdue, rfl⟩
    exact absurd ⟨hready, by rw [State.rspValid, presented, Option.isSome_some]⟩ h

/-- Settles O24: the edge ends with a transfer of the oldest response, or without one. -/
theorem responseTransfer : Obligations.ResponseTransfer := by
  intro s hrst
  refine ⟨s.afterAccept, s.afterAccept.endEdge, acceptPhase_eq s, step_of_not_rst hrst, State.endEdge_accepted _, ?_, ?_⟩
  · rintro ⟨hready, hvalid⟩
    obtain ⟨r, hr⟩ := Option.isSome_iff_exists.1 hvalid
    obtain ⟨e, q, hq, hdue, -⟩ := (State.presented_eq_some _ r).1 hr
    rw [← State.afterAccept_pins] at hready
    refine ⟨e, q, hq, ?_, ?_⟩
    · rw [State.endEdge_inFlight, deliver_of_due hready hq hdue]
    · rw [State.endEdge_answered, deliver_of_due hready hq hdue, State.afterAccept_answered]
  · intro no_transfer
    rw [← State.afterAccept_pins] at no_transfer
    rw [State.endEdge_inFlight, State.endEdge_answered, deliver_of_no_transfer no_transfer, State.afterAccept_answered]
    exact ⟨rfl, rfl⟩

/-- A response that is due stays due, so that it is still presented when the edge is over (R62). -/
theorem presented_tick {s : State} {r : Response} (h : s.presented = some r) : s.tick.presented = some r := by
  obtain ⟨e, q, hq, hdue, hr⟩ := (s.presented_eq_some r).1 h
  refine (s.tick.presented_eq_some r).2 ⟨e, q, hq, ?_, hr⟩
  rw [State.due, decide_eq_true_eq] at hdue ⊢
  exact hdue.trans (Nat.le_succ _)

/-- Settles O25: without `rsp_ready` the end of the edge only counts it. -/
theorem heldResponseStays : Obligations.HeldResponseStays := by
  intro s t r hrst not_ready haccept hpresented
  obtain rfl : s.afterAccept = t := Host.Outcome.next.inj ((acceptPhase_eq s).symm.trans haccept)
  have held : s.afterAccept.deliver = s.afterAccept := deliver_of_no_transfer (by simp [not_ready])
  refine ⟨s.afterAccept.endEdge, step_of_not_rst hrst, ?_, ?_⟩
  · rw [State.endEdge, held]
    exact presented_tick hpresented
  · rw [State.endEdge_answered, held, State.afterAccept_answered]

/-! ### The output pins -/

theorem outputs_of_not_rst {s : State} (h : s.pins.rst = false) :
    s.outputs = { channelWires s.afterAccept with cmdReady := s.cmdReady } := by
  simp [State.outputs, h, acceptPhase_eq]

theorem channelWires_rspValid (t : State) : (channelWires t).rspValid = t.rspValid := by
  unfold channelWires State.rspValid
  split <;> simp [*]

/-- The wires carry a presented response as status and bus value; beside a fault the bus is free (R204). -/
theorem channelWires_of_presented {t : State} {r : Response} (h : t.presented = some r) :
    channelWires t = ⟨t.cmdReady, true, r.statusCode, busValue (Config.failedY t.cycle) r⟩ := by
  unfold channelWires
  rw [h]
  cases r <;> rfl

/-- Settles O26: the pins are the wires of the response channel after the acceptance, off which the host reads the response. -/
theorem outputsShowTheResponse : Obligations.OutputsShowTheResponse := by
  intro s hrst
  refine ⟨s.afterAccept, acceptPhase_eq s, ?_⟩
  rw [outputs_of_not_rst hrst]
  refine ⟨rfl, channelWires_rspValid _, fun r hr => ?_⟩
  rw [channelWires_of_presented hr]
  exact ⟨rfl, readResponse_statusCode_busValue r _⟩

/-! ### Every edge keeps `Consistent` (R46, R47) -/

/-- No more responses are taken than commands accepted. -/
theorem answered_length_le {s : State} (h : s.Consistent) : s.answered.length ≤ s.accepted.length := by
  have lengths := congrArg List.length h.responses
  simp only [State.allResponses, List.length_append, List.length_map] at lengths
  omega

/-- An edge that transfers nothing keeps the invariant: the commands in flight are past all the more. -/
theorem consistent_tick {s : State} (h : s.Consistent) : s.tick.Consistent where
  responses := h.responses
  queue := h.queue
  order := h.order
  past e he := (h.past e he).trans (Nat.lt_succ_self _)

/-- A command that is accepted with its own response, at an edge after those of the commands in flight, keeps the invariant once that
edge is counted. -/
theorem consistent_accept_tick {s : State} (h : s.Consistent) (i : Instr) :
    (s.accept i (response s.oorMode i)).tick.Consistent where
  responses := by
    change (s.accept i _).allResponses = (s.accepted ++ [i]).map (response s.oorMode)
    rw [accept_allResponses, h.responses, List.map_append, List.map_singleton]
  queue := by
    simp [h.queue, List.drop_append_of_le_length (answered_length_le h)]
  order := by
    simpa [List.pairwise_append, h.order] using h.past
  past := by
    intro e he
    rw [State.tick_inFlight, State.accept_inFlight, List.mem_append, List.mem_singleton] at he
    obtain old | rfl := he
    · exact (h.past e old).trans (Nat.lt_succ_self _)
    · exact Nat.lt_succ_self _

theorem consistent_afterAccept_tick {s : State} (h : s.Consistent) : s.afterAccept.tick.Consistent := by
  unfold State.afterAccept
  split
  · exact consistent_accept_tick h _
  · exact consistent_tick h

/-- Taking the response of the oldest command keeps the invariant: the responses of the run are the same, and the queue is shorter by
its oldest command. -/
theorem consistent_endEdge_of_tick {s : State} (h : s.tick.Consistent) : s.endEdge.Consistent := by
  obtain ⟨kept, -⟩ | ⟨e, q, -, hq, -, taken⟩ := s.deliver_cases
  · rwa [State.endEdge, kept]
  · have order := h.order
    have queue := h.queue
    rw [State.tick_inFlight, hq] at order queue
    refine ⟨?_, ?_, ?_, fun d hd => ?_⟩
    · rw [endEdge_allResponses, State.endEdge_accepted, State.endEdge_oorMode]
      exact h.responses
    · have newer : q.map (·.cmd) = (s.accepted.drop s.answered.length).tail := congrArg List.tail queue
      simpa [taken] using newer
    · rw [State.endEdge_inFlight, taken]
      exact order.of_cons
    · rw [State.endEdge_inFlight, taken] at hd
      rw [State.endEdge_cycle]
      exact h.past d (by rw [State.tick_inFlight, hq]; exact List.mem_cons_of_mem e hd)

theorem consistent_afterEdge {s : State} (h : s.Consistent) : s.afterEdge.Consistent := by
  unfold State.afterEdge
  split
  · exact consistent_of_launched (resetEdge_launched s)
  · exact consistent_endEdge_of_tick (consistent_afterAccept_tick h)

/-- Settles O32: by the kinds of edge; one with `rst` = 0 accepts a command or not and takes a response or not. -/
theorem stepKeepsConsistent : Obligations.StepKeepsConsistent := by
  intro s t h hstep
  obtain rfl : s.afterEdge = t := Host.Outcome.next.inj ((step_eq_afterEdge s).symm.trans hstep)
  exact consistent_afterEdge h

/-! ### Runs -/

theorem consistent_run {k : Nat} {s t : State} (hs : s.Consistent) (h : run k s = .next t) : t.Consistent := by
  induction k generalizing s with
  | zero => exact Host.Outcome.next.inj h ▸ hs
  | succ k ih =>
    rw [run, run_succ] at h
    exact ih (consistent_afterEdge hs) h

/-- The responses taken are those of the first commands, since those owed come after them (R46). -/
theorem taken_responses_first {s : State} (h : s.Consistent) : s.answered <+: s.accepted.map (response s.oorMode) :=
  ⟨_, h.responses⟩

/-- When the run is over no command is without its response (R241). -/
theorem inFlight_eq_nil_of_runOver {s : State} (h : s.Consistent) (hover : s.runOver) : s.inFlight = [] := by
  have queue := h.queue
  rwa [hover, List.drop_length, List.map_eq_nil_iff] at queue

theorem answered_eq_of_runOver {s : State} (h : s.Consistent) (hover : s.runOver) :
    s.answered = s.accepted.map (response s.oorMode) := by
  rw [← h.responses, State.allResponses, inFlight_eq_nil_of_runOver h hover, List.map_nil, List.append_nil]

/-- Settles O33: a launched block is consistent, so every state of its run is. -/
theorem runAnswersInCommandOrder : Obligations.RunAnswersInCommandOrder := by
  intro k s t hlaunched hrun
  have consistent : t.Consistent := consistent_run (consistent_of_launched hlaunched) hrun
  exact ⟨taken_responses_first consistent, fun hover =>
    ⟨answered_eq_of_runOver consistent hover, inFlight_eq_nil_of_runOver consistent hover⟩⟩

/-! ### Every accepted command is answered (R238) -/

/-- The cycles that commands have still to wait at the edge `now`, and one edge for each: `drainBound` for the first commands of a queue
alone. -/
def edgesToDrain (now : Nat) (q : List InFlight) : Nat :=
  (q.map fun e => e.acceptedAt + Config.latency e.acceptedAt - now).sum + q.length

theorem drainBound_eq_edgesToDrain (s : State) : drainBound s = edgesToDrain s.cycle s.inFlight := rfl

theorem edgesToDrain_cons (now : Nat) (e : InFlight) (q : List InFlight) :
    edgesToDrain now (e :: q) = (e.acceptedAt + Config.latency e.acceptedAt - now) + edgesToDrain now q + 1 := by
  simp only [edgesToDrain, List.map_cons, List.sum_cons, List.length_cons]
  omega

/-- Nobody waits longer for an edge that has passed. -/
theorem edgesToDrain_succ_le (now : Nat) (q : List InFlight) : edgesToDrain (now + 1) q ≤ edgesToDrain now q := by
  induction q with
  | nil => exact le_rfl
  | cons e q ih =>
    rw [edgesToDrain_cons, edgesToDrain_cons]
    omega

/-- A command that is not due waits one cycle less after the edge. -/
theorem edgesToDrain_succ_lt {s : State} {e : InFlight} (hdue : ¬ s.due e = true) (q : List InFlight) :
    edgesToDrain (s.cycle + 1) (e :: q) < edgesToDrain s.cycle (e :: q) := by
  rw [State.due, decide_eq_true_eq] at hdue
  have others := edgesToDrain_succ_le s.cycle q
  rw [edgesToDrain_cons, edgesToDrain_cons]
  omega

/-- A host that takes responses at `n + 1` edges takes one at the coming edge, and at the `n` edges after it. -/
theorem hostTakes_succ {s : State} {n : Nat} (h : s.hostTakes (n + 1) = true) :
    s.pins.rst = false ∧ s.pins.rspReady = true ∧ ∀ t : State, t.inputs = s.inputs.tail → t.hostTakes n = true := by
  cases hin : s.inputs with
  | nil => simp [State.hostTakes, hin] at h
  | cons p ps =>
    simp only [State.hostTakes, hin, List.length_cons, List.take_succ_cons, List.all_cons, Bool.and_eq_true, decide_eq_true_eq,
      Bool.not_eq_eq_eq_not, Bool.not_true, Nat.add_le_add_iff_right] at h
    obtain ⟨scheduled, ⟨no_reset, ready⟩, later⟩ := h
    refine ⟨by rw [State.pins, hin]; exact no_reset, by rw [State.pins, hin]; exact ready, fun t ht => ?_⟩
    simpa [State.hostTakes, ht] using ⟨scheduled, by simpa using later⟩

/-- The command accepted at an edge joins behind those in flight. -/
theorem afterAccept_inFlight_append {s : State} {q newer : List InFlight} (h : s.inFlight = q ++ newer) :
    ∃ newer', s.afterAccept.inFlight = q ++ newer' := by
  unfold State.afterAccept
  split
  · exact ⟨_, by rw [State.accept_inFlight, h, List.append_assoc]⟩
  · exact ⟨newer, h⟩

/-- What an edge at which the host takes responses does to the first commands `q` of the queue: the oldest is answered, or it is not due
and all wait on; if there are none, responses to others may be taken. -/
theorem endEdge_of_rspReady {s : State} {q newer : List InFlight} (hready : s.pins.rspReady = true) (hq : s.inFlight = q ++ newer) :
    (∃ e q', q = e :: q' ∧ s.endEdge.inFlight = q' ++ newer ∧ s.endEdge.answered = s.answered ++ [e.rsp]) ∨
    (∃ e q', q = e :: q' ∧ ¬ s.due e = true ∧ s.endEdge.inFlight = q ++ newer ∧ s.endEdge.answered = s.answered) ∨
    (q = [] ∧ s.answered <+: s.endEdge.answered) := by
  cases q with
  | nil =>
    refine .inr (.inr ⟨rfl, ?_⟩)
    rw [State.endEdge_answered]
    obtain ⟨kept, -⟩ | ⟨e, q, -, -, -, taken⟩ := s.deliver_cases
    · rw [kept]
    · rw [taken]
      exact ⟨_, rfl⟩
  | cons e q =>
    by_cases hdue : s.due e = true
    · refine .inl ⟨e, q, rfl, ?_⟩
      rw [State.endEdge_inFlight, State.endEdge_answered, deliver_of_due hready hq hdue]
      exact ⟨rfl, rfl⟩
    · refine .inr (.inl ⟨e, q, rfl, hdue, ?_⟩)
      have not_valid : ¬ s.rspValid = true := by simp [State.rspValid, State.presented, hq, hdue]
      rw [State.endEdge_inFlight, State.endEdge_answered, deliver_of_no_transfer fun h => not_valid h.2]
      exact ⟨hq, rfl⟩

/-- The bound for the first commands `q` of a queue, whatever commands join behind them: at each edge the oldest is answered, or the
bound for all of them is smaller. -/
theorem run_answers_oldest (n : Nat) (s : State) (q newer : List InFlight) (hq : s.inFlight = q ++ newer)
    (hbound : edgesToDrain s.cycle q ≤ n) (htakes : s.hostTakes n = true) :
    ∃ t, run n s = .next t ∧ s.answered ++ q.map (·.rsp) <+: t.answered := by
  induction n generalizing s q newer with
  | zero =>
    have none_left : q = [] := List.eq_nil_of_length_eq_zero (by rw [edgesToDrain] at hbound; omega)
    exact ⟨s, rfl, by rw [none_left, List.map_nil, List.append_nil]⟩
  | succ n ih =>
    obtain ⟨hrst, hready, later⟩ := hostTakes_succ htakes
    obtain ⟨newer', hq'⟩ := afterAccept_inFlight_append hq
    rw [run, run_succ, State.afterEdge_of_not_rst hrst]
    have htakes' : s.afterAccept.endEdge.hostTakes n = true := later _ (by simp)
    have hcycle : s.afterAccept.endEdge.cycle = s.cycle + 1 := by simp
    rw [← State.afterAccept_pins] at hready
    rw [← State.afterAccept_answered s]
    obtain ⟨e, q', rfl, queue, answered⟩ | ⟨e, q', rfl, not_due, queue, answered⟩ | ⟨rfl, answered⟩ :=
      endEdge_of_rspReady hready hq'
    · have bound : edgesToDrain s.afterAccept.endEdge.cycle q' ≤ n := by
        have := edgesToDrain_succ_le s.cycle q'
        rw [edgesToDrain_cons] at hbound
        rw [hcycle]
        omega
      obtain ⟨t, hrun, taken⟩ := ih _ q' newer' queue bound htakes'
      rw [answered, List.append_assoc] at taken
      exact ⟨t, hrun, taken⟩
    · have bound : edgesToDrain s.afterAccept.endEdge.cycle (e :: q') ≤ n := by
        have := edgesToDrain_succ_lt not_due q'
        rw [State.afterAccept_cycle] at this
        rw [hcycle]
        omega
      obtain ⟨t, hrun, taken⟩ := ih _ (e :: q') newer' queue bound htakes'
      rw [answered] at taken
      exact ⟨t, hrun, taken⟩
    · obtain ⟨t, hrun, taken⟩ := ih _ [] s.afterAccept.endEdge.inFlight rfl (Nat.zero_le n) htakes'
      rw [List.map_nil, List.append_nil] at taken ⊢
      exact ⟨t, hrun, answered.trans taken⟩

/-- Settles O34: all commands in flight are the first commands of the queue. -/
theorem everyAcceptedCommandIsAnswered : Obligations.EveryAcceptedCommandIsAnswered := by
  intro s n hbound htakes
  rw [drainBound_eq_edgesToDrain] at hbound
  exact run_answers_oldest n s s.inFlight [] (List.append_nil _).symm hbound htakes

end Sys2Proof.Edges

/-! PROOFS. Laws of the conversions (`42_remap_widen.md`, `43_remap_narrow.md` section 2): on in-range samples the commands of the six
pairs answer the two formulas on numbers, from which the laws follow. -/

namespace Sys2Proof.ConversionLaws

open Sys2Proof.Machine Sys2Proof.Claims Sys2Proof.Widening Sys2Proof.Narrowing

/-! ### The six pairs on numbers -/

/-- A command has one response, so it converts to one number. -/
theorem converts_iff_of_response {m : OorMode} {i : Instr} {x : Sample} (h : response m i = .ok (resultY16 x)) (w : Nat) :
    Converts m i w ↔ x.toNat = w := by
  constructor
  · rintro ⟨y, hy, rfl⟩
    rw [h] at hy
    rw [← Response.ok.inj hy, resultY16_toNat]
  · rintro rfl
    exact ⟨_, h, resultY16_toNat x⟩

section Pair

variable {S T : Depth} {w n : Sample → Instr} (pair : WidensAndNarrows S T w n) (m : OorMode)
include pair

theorem converts_widening {v : Sample} (hv : v.toNat < 2 ^ S.bits) : Converts m (w v) (replicated S.bits T.bits v.toNat) :=
  (converts_iff_of_response (pair.widens m v hv) _).2 (widen_toNat_eq_replicated S T v)

theorem converts_narrowing_iff {v : Sample} (hv : v.toNat < 2 ^ T.bits) (x : Nat) :
    Converts m (n v) x ↔ truncated T.bits S.bits v.toNat = x := by
  rw [converts_iff_of_response (pair.narrows m v hv), narrow_toNat_eq_truncated]

end Pair

/-- Settles O36. -/
theorem wideningSumForm : Obligations.WideningSumForm := by
  intro p hp m v hv
  obtain ⟨S, T, hS, hT, pair⟩ := widensAndNarrows_of_mem hp
  rw [hS] at hv
  rw [hS, hT, ← replicated_eq_sum pair.lt hv]
  exact converts_widening pair m hv

/-! ### Order and range (R167, R168) -/

/-- The first term of the sum increases strictly, the second does not decrease. -/
theorem replicated_lt_replicated {S T : Depth} (hST : S.bits < T.bits) {v w : Nat} (hvw : v < w) (hw : w < 2 ^ S.bits) :
    replicated S.bits T.bits v < replicated S.bits T.bits w := by
  rw [replicated_eq_sum hST (hvw.trans hw), replicated_eq_sum hST hw]
  exact Nat.add_lt_add_of_lt_of_le (Nat.mul_lt_mul_of_pos_right hvw (Nat.two_pow_pos _)) (Nat.div_le_div_right hvw.le)

/-- Settles O38. -/
theorem wideningIncreasesInRange : Obligations.WideningIncreasesInRange := by
  intro p hp m v w hvw hw
  obtain ⟨S, T, hS, hT, pair⟩ := widensAndNarrows_of_mem hp
  rw [hS] at hw
  rw [hT]
  exact ⟨_, _, converts_widening pair m (hvw.trans hw), converts_widening pair m hw, replicated_lt_replicated pair.lt hvw hw,
    replicated_lt pair.lt hw⟩

/-! ### The endpoints (R166, R189) -/

/-- Full scale is replicated to full scale (R166). -/
theorem replicated_full_scale {S T : Depth} (hST : S.bits < T.bits) : replicated S.bits T.bits (2 ^ S.bits - 1) = 2 ^ T.bits - 1 := by
  obtain ⟨rfl, rfl⟩ | ⟨rfl, rfl⟩ | ⟨rfl, rfl⟩ | ⟨rfl, rfl⟩ | ⟨rfl, rfl⟩ | ⟨rfl, rfl⟩ := Encoding.depths_of_bits_lt hST
  all_goals decide

/-- Truncation takes full scale back, since it takes every replicated sample back (R165). -/
theorem truncated_full_scale {S T : Depth} (hST : S.bits < T.bits) : truncated T.bits S.bits (2 ^ T.bits - 1) = 2 ^ S.bits - 1 := by
  rw [← replicated_full_scale hST]
  exact truncated_replicated hST (Nat.sub_lt (Nat.two_pow_pos _) Nat.one_pos)

theorem replicated_zero (S T : Nat) : replicated S T 0 = 0 := by simp [replicated]

theorem truncated_zero (S T : Nat) : truncated S T 0 = 0 := Nat.zero_div _

/-- The full scale of a depth as a sample. -/
theorem full_scale_toNat (S : Depth) : (BitVec.ofNat 16 (2 ^ S.bits - 1)).toNat = 2 ^ S.bits - 1 := by
  cases S <;> rfl

/-- Settles O37. -/
theorem endpointsMapToEndpoints : Obligations.EndpointsMapToEndpoints := by
  intro p hp m
  obtain ⟨S, T, hS, hT, pair⟩ := widensAndNarrows_of_mem hp
  have zero_lt (D : Depth) : (0#16).toNat < 2 ^ D.bits := Nat.two_pow_pos _
  have full_lt (D : Depth) : (BitVec.ofNat 16 (2 ^ D.bits - 1)).toNat < 2 ^ D.bits := by
    rw [full_scale_toNat]
    exact Nat.sub_lt (Nat.two_pow_pos _) Nat.one_pos
  rw [hS, hT]
  refine ⟨?_, ?_, (converts_narrowing_iff pair m (zero_lt T) _).2 ?_, (converts_narrowing_iff pair m (full_lt T) _).2 ?_⟩
  · simpa [replicated_zero] using converts_widening pair m (zero_lt S)
  · have h := converts_widening pair m (full_lt S)
    rwa [full_scale_toNat, replicated_full_scale pair.lt] at h
  · exact truncated_zero _ _
  · rw [full_scale_toNat, truncated_full_scale pair.lt]

/-- Settles O41, by the sum form of the three widenings. -/
theorem wideningsDoNotCompose : Obligations.WideningsDoNotCompose := fun m =>
  ⟨wideningSumForm (8, 10, .w8_10, .n10_8) (by simp [widenNarrowPairs]) m 16#16 (by decide),
    wideningSumForm (10, 12, .w10_12, .n12_10) (by simp [widenNarrowPairs]) m 64#16 (by decide),
    wideningSumForm (8, 12, .w8_12, .n12_8) (by simp [widenNarrowPairs]) m 16#16 (by decide)⟩

/-! ### Narrowing (R189 to R191) -/

/-- Truncation to `S` is a division, so its fibres are the intervals of that length (R189). -/
theorem truncated_eq_iff (T S v w : Nat) :
    truncated T S v = w ↔ w * 2 ^ (T - S) ≤ v ∧ v < (w + 1) * 2 ^ (T - S) := by
  rw [truncated, Nat.div_eq_iff (Nat.two_pow_pos _), Nat.succ_mul]
  have := Nat.two_pow_pos (T - S)
  omega

/-- The truncation of an in-range sample is in range for the target depth (R190). -/
theorem truncated_lt {S T v : Nat} (hST : S ≤ T) (hv : v < 2 ^ T) : truncated T S v < 2 ^ S := by
  apply Nat.div_lt_of_lt_mul
  rwa [← pow_add, Nat.sub_add_cancel hST]

/-- Settles O39. -/
theorem narrowingFibres : Obligations.NarrowingFibres := by
  intro p hp m v w hv
  obtain ⟨S, T, hS, hT, pair⟩ := widensAndNarrows_of_mem hp
  rw [hT] at hv
  rw [hS, hT, converts_narrowing_iff pair m hv]
  refine ⟨truncated_eq_iff _ _ _ _, ?_⟩
  rintro rfl
  exact truncated_lt pair.lt.le hv

/-- Dropping low bits twice drops them together (R191). -/
theorem narrow_narrow {S T U : Depth} (hTS : T.bits ≤ S.bits) (hUT : U.bits ≤ T.bits) (v : Sample) :
    narrow T U (narrow S T v) = narrow S U v := by
  have together : S.bits - T.bits + (T.bits - U.bits) = S.bits - U.bits := by omega
  rw [narrow, narrow, narrow, ← BitVec.shiftRight_add, together]

theorem narrow_lt {S T : Depth} (hTS : T.bits ≤ S.bits) {v : Sample} (hv : v.toNat < 2 ^ S.bits) :
    (narrow S T v).toNat < 2 ^ T.bits := by
  rw [narrow_toNat_eq_truncated]
  exact truncated_lt hTS hv

/-- A command that answers the conversion of its sample by a narrowing, on the result of a narrowing to its depth, answers the narrowing
of both steps. -/
theorem response_narrow_narrow {m : OorMode} {mk : Sample → Instr} {op : Op} {S T U : Depth} {v : Sample}
    (hresponse : ∀ x, response m (mk x) = .ok (resultY16 (convert m op T x (narrow T U x)))) (hTS : T.bits ≤ S.bits)
    (hUT : U.bits ≤ T.bits) (hv : v.toNat < 2 ^ S.bits) :
    response m (mk (sampleOf (resultY16 (narrow S T v)))) = .ok (resultY16 (narrow S U v)) := by
  rw [sampleOf_resultY16, response_of_inRange (hresponse _) (narrow_lt hTS hv), narrow_narrow hTS hUT]

/-- Settles O40: the first narrowing answers its formula (for depths below 16 on in-range samples), and the second one on it both. -/
theorem narrowingsCompose : Obligations.NarrowingsCompose := by
  refine fun m v => ⟨⟨_, rfl, ?_⟩, ⟨_, rfl, ?_⟩, ⟨_, rfl, ?_⟩, fun hv => ⟨_, response_of_inRange (S := .d12) rfl hv, ?_⟩⟩
  · exact response_narrow_narrow (mk := .n12_8) (S := .d16) (fun _ => rfl) (by decide) (by decide) v.isLt
  · exact response_narrow_narrow (mk := .n10_8) (S := .d16) (fun _ => rfl) (by decide) (by decide) v.isLt
  · exact response_narrow_narrow (mk := .n12_10) (S := .d16) (fun _ => rfl) (by decide) (by decide) v.isLt
  · have direct : response m (.n12_8 v) = .ok (resultY16 (narrow .d12 .d8 v)) := response_of_inRange (S := .d12) rfl hv
    rw [direct]
    exact response_narrow_narrow (mk := .n10_8) (S := .d12) (fun _ => rfl) (by decide) (by decide) hv

/-! ### In-range samples in either `OOR_MODE` -/

/-- A byte in its container is in range for depth 8 (R162). -/
theorem byte_inRange (b : Byte) : (b.setWidth 16 : Sample).toNat < 2 ^ Depth.d8.bits := by
  rw [BitVec.toNat_setWidth_of_le (by decide)]
  exact b.isLt

/-- Settles O42: the zero-extended byte is in range, so the container widening answers its formula. -/
theorem byteWideningAgrees : Obligations.ByteWideningAgrees := fun _ b =>
  ⟨(response_of_inRange rfl (byte_inRange b)).symm, (response_of_inRange rfl (byte_inRange b)).symm⟩

/-- An in-range sample is converted in the same way in either `OOR_MODE` (R152). -/
theorem convert_eq_container16 {S : Depth} {v : Sample} (m : OorMode) (op : Op) (x : Sample) (hv : v.toNat < 2 ^ S.bits) :
    convert m op S v x = convert .container16 op S v x := by
  rw [convert_formula op x fun out_of_range => out_of_range.1.not_gt hv,
    convert_formula op x fun out_of_range => out_of_range.1.not_gt hv]

/-- Only the commands of a declared depth below 16 look at `OOR_MODE`, and not for an in-range sample. -/
theorem response_eq_container16 (m : OorMode) {i : Instr} (h : i.inRange = true) : response m i = response .container16 i := by
  cases i with
  | w8_10 v | w8_12 v | w8_16 v =>
    exact congrArg (Response.ok ∘ resultY16) (convert_eq_container16 (S := .d8) m _ _ (of_decide_eq_true h))
  | w10_12 v | w10_16 v | n10_8 v =>
    exact congrArg (Response.ok ∘ resultY16) (convert_eq_container16 (S := .d10) m _ _ (of_decide_eq_true h))
  | w12_16 v | n12_8 v | n12_10 v =>
    exact congrArg (Response.ok ∘ resultY16) (convert_eq_container16 (S := .d12) m _ _ (of_decide_eq_true h))
  | _ => rfl

/-- Settles O55: by the two sides of the premise. -/
theorem documentedSamplesGiveContainer16Responses : Obligations.DocumentedSamplesGiveContainer16Responses := by
  rintro m cmds (in_range | rfl)
  · exact List.map_congr_left fun i hi => response_eq_container16 m (in_range i hi)
  · rfl

end Sys2Proof.ConversionLaws

/-! PROOFS. Round trips (`40_packed_pixel_codec.md` section 3, `41_buffer_conversions.md` sections 3 to 5): the lanes of a packed pixel,
one RGBA32 group, a byte stream, and the stream as the block answers it. -/

namespace Sys2Proof.RoundTrips

open Sys2Proof.Machine Sys2Proof.Claims Sys2Proof.Encoding Sys2Proof.Codec Sys2Proof.Buffers Sys2Proof.ConversionLaws

/-! ### The codec is a bijection (R107, R108) -/

section Lanes

variable (r g b a : Sample)

theorem lane_zero_packPixel : lane 0 (packPixel r g b a) = r :=
  BitVec.eq_of_toNat_eq (by rw [lane_toNat, packPixel_toNat]; omega)
theorem lane_one_packPixel : lane 1 (packPixel r g b a) = g :=
  BitVec.eq_of_toNat_eq (by rw [lane_toNat, packPixel_toNat]; omega)
theorem lane_two_packPixel : lane 2 (packPixel r g b a) = b :=
  BitVec.eq_of_toNat_eq (by rw [lane_toNat, packPixel_toNat]; omega)
theorem lane_three_packPixel : lane 3 (packPixel r g b a) = a :=
  BitVec.eq_of_toNat_eq (by rw [lane_toNat, packPixel_toNat]; omega)

end Lanes

theorem packPixel_lanes (p : Pixel) : packPixel (lane 0 p) (lane 1 p) (lane 2 p) (lane 3 p) = p := by
  apply BitVec.eq_of_toNat_eq
  rw [packPixel_toNat, lane_toNat, lane_toNat, lane_toNat, lane_toNat]
  omega

/-- A pixel is packed from four channels exactly if they are its lanes. -/
theorem packPixel_eq_iff (r g b a : Sample) (p : Pixel) :
    packPixel r g b a = p ↔ r = lane 0 p ∧ g = lane 1 p ∧ b = lane 2 p ∧ a = lane 3 p := by
  constructor
  · rintro rfl
    rw [lane_zero_packPixel, lane_one_packPixel, lane_two_packPixel, lane_three_packPixel]
    exact ⟨rfl, rfl, rfl, rfl⟩
  · rintro ⟨rfl, rfl, rfl, rfl⟩
    exact packPixel_lanes p

/-- Settles O43: each accessor answers its lane of the pixel. -/
theorem codecIsBijective : Obligations.CodecIsBijective := by
  refine ⟨fun m r g b a => ⟨packPixel r g b a, rfl, ?_, ?_, ?_, ?_⟩, fun m p => ⟨_, _, _, _, rfl, rfl, rfl, rfl, ?_⟩⟩
  · exact (converts_iff_of_response (x := lane 0 _) rfl _).2 (by rw [lane_zero_packPixel])
  · exact (converts_iff_of_response (x := lane 1 _) rfl _).2 (by rw [lane_one_packPixel])
  · exact (converts_iff_of_response (x := lane 2 _) rfl _).2 (by rw [lane_two_packPixel])
  · exact (converts_iff_of_response (x := lane 3 _) rfl _).2 (by rw [lane_three_packPixel])
  · simp only [sampleOf_resultY16]
    exact congrArg Response.ok (packPixel_lanes p)

/-! ### One group (R124) -/

theorem bytesOf_groupPixel (r g b a : Byte) : bytesOf (highBytesResult (groupPixel r g b a)) = [r, g, b, a] := by
  rw [bytesOf_highBytesResult, groupPixel, lane_zero_packPixel, lane_one_packPixel, lane_two_packPixel, lane_three_packPixel]
  simp only [Widening.highByte_byteTo16]

/-- Doubling the high byte of a lane gives the lane exactly if its halves are equal. -/
theorem byteTo16_highByte_eq_iff (n : Nat) (p : Pixel) :
    byteTo16 (highByte (lane n p)) = lane n p ↔ laneNat n p.toNat / 2 ^ 8 = laneNat n p.toNat % 2 ^ 8 := by
  rw [← BitVec.toNat_inj, byteTo16_toNat, highByte_toNat, lane_toNat_eq_laneNat]
  omega

/-- The group of the high bytes of a pixel is the pixel exactly if every lane has equal halves. -/
theorem groupPixel_highBytes_eq_iff (p : Pixel) :
    groupPixel (highByte (lane 0 p)) (highByte (lane 1 p)) (highByte (lane 2 p)) (highByte (lane 3 p)) = p ↔
      ∀ n < 4, laneNat n p.toNat / 2 ^ 8 = laneNat n p.toNat % 2 ^ 8 := by
  rw [groupPixel, packPixel_eq_iff]
  simp only [byteTo16_highByte_eq_iff]
  constructor
  · rintro ⟨h0, h1, h2, h3⟩ n hn
    interval_cases n
    exacts [h0, h1, h2, h3]
  · intro h
    exact ⟨h 0 (by decide), h 1 (by decide), h 2 (by decide), h 3 (by decide)⟩

/-- The fields of format B4K of a Y4B result are the bytes it carries (R67, R70). -/
theorem fields_of_bytesOf {y : Result} {r g b a : Byte} (h : bytesOf y = [r, g, b, a]) :
    fieldR8 y = r ∧ fieldG8 y = g ∧ fieldB8 y = b ∧ fieldA8 y = a := by
  simpa [bytesOf, fieldR8, fieldG8, fieldB8, fieldA8] using h

/-- Settles O44: the group's pixel gives its bytes, and the bytes of a pixel are the high bytes of its lanes. -/
theorem groupRoundTrip : Obligations.GroupRoundTrip := by
  refine ⟨fun m r g b a => ⟨_, _, response_packRgba32_filled m r g b a, response_unpkRgba32 m _, bytesOf_groupPixel r g b a⟩,
    fun m p => ⟨_, response_unpkRgba32 m p, ?_⟩⟩
  obtain ⟨hr, hg, hb, ha⟩ := fields_of_bytesOf (bytesOf_highBytesResult p)
  rw [hr, hg, hb, ha, response_packRgba32_filled, Response.ok.injEq]
  exact groupPixel_highBytes_eq_iff p

/-! ### A byte stream (`41_buffer_conversions.md` section 5) -/

/-- The four bytes of the full group `k` of a stream. -/
def groupBytes (bytes : List Byte) (k : Nat) : List Byte :=
  [byteAt bytes (4 * k), byteAt bytes (4 * k + 1), byteAt bytes (4 * k + 2), byteAt bytes (4 * k + 3)]

theorem bytesOf_pixelAt (bytes : List Byte) (k : Nat) : bytesOf (highBytesResult (pixelAt bytes k)) = groupBytes bytes k :=
  bytesOf_groupPixel _ _ _ _

theorem groupBytes_cons_four (r g b a : Byte) (rest : List Byte) (k : Nat) :
    groupBytes (r :: g :: b :: a :: rest) (k + 1) = groupBytes rest k := by
  simp only [groupBytes, Nat.mul_succ, Nat.add_comm _ 4, Nat.add_assoc, byteAt_cons_four]

/-- A stream without left-over bytes is its groups one after another, by the recursion of the cutting. -/
theorem flatMap_groupBytes {bytes : List Byte} (h : bytes.length % 4 = 0) :
    (List.range (bytes.length / 4)).flatMap (groupBytes bytes) = bytes := by
  induction bytes using rgba32Commands.induct with
  | case1 r g b a rest ih =>
    rw [length_cons_four_mod] at h
    rw [length_cons_four_div, List.range_succ_eq_map, List.flatMap_cons, List.flatMap_map]
    simp only [Nat.succ_eq_add_one, groupBytes_cons_four, ih h]
    rfl
  | case2 r g b => simp at h
  | case3 r g => simp at h
  | case4 r => simp at h
  | case5 => rfl

/-- Settles O50: the pixels of the buffer are those of the groups, and each gives back the bytes of its group. -/
theorem streamRoundTrip : Obligations.StreamRoundTrip := by
  refine fun m width height bytes h => ⟨_, fromRgba32_of_mod_eq_zero m width height h, ?_⟩
  rw [toRgba32_eq, List.flatMap_map]
  simp only [bytesOf_pixelAt]
  rw [flatMap_groupBytes h]

/-! ### The block's run over a stream -/

/-- `FROM_RGBA32` collects the responses to the commands of the stream (R125). -/
theorem collect_responses_eq_fromRgba32 (m : OorMode) (width height : Nat) (bytes : List Byte) :
    (collect ((rgba32Commands bytes).map (response m))).map (fun px => (⟨width, height, px⟩ : Buffer Pixel)) =
      fromRgba32 m width height bytes := by
  rw [fromRgba32, sequenceForm_id]
  cases collect ((rgba32Commands bytes).map (response m)) <;> rfl

/-- All responses to the commands of a stream have the status OK exactly if no bytes are left over (R125, R128). -/
theorem responses_statusOk_iff (m : OorMode) (bytes : List Byte) :
    (((rgba32Commands bytes).map (response m)).all fun r => r.statusCode == 0b00#2) = true ↔ bytes.length % 4 = 0 := by
  have pixels_ok (px : List Pixel) : ((px.map Response.ok).all fun r => r.statusCode == 0b00#2) = true := by
    simp [Response.statusCode]
  rw [responses_rgba32Commands, List.all_append, pixels_ok, Bool.true_and]
  by_cases h : bytes.length % 4 = 0
  · simp [leftOver_of_mod_eq_zero h, h]
  · simp [responses_leftOver m h, h, Response.statusCode]

/-- Settles O51: when the run is over the responses taken are those to the commands of the stream. -/
theorem blockRunsFromRgba32 : Obligations.BlockRunsFromRgba32 := by
  intro s width height bytes hconsistent hover hcut
  have taken : s.answered = (rgba32Commands bytes).map (response s.oorMode) := by
    rw [Edges.answered_eq_of_runOver hconsistent hover, hcut]
  rw [State.faultFree, taken]
  exact ⟨collect_responses_eq_fromRgba32 s.oorMode width height bytes, responses_statusOk_iff s.oorMode bytes⟩

end Sys2Proof.RoundTrips

/-! PROOFS. The assembler (`30_encoding.md` sections 4 and 6): the word of a line by its name and its operands, and the parametrised forms
`widen` and `narrow`. -/

namespace Sys2Proof.Assembling

open Sys2Proof.Machine Sys2Proof.Claims Sys2Proof.Encoding Sys2Proof.CommandWord

/-! ### The command word on numbers -/

theorem append_eq_commandWord (op : Op) (a : Operand) : op ++ a = commandWord op.toNat a.toNat := by
  apply BitVec.eq_of_toNat_eq
  rw [commandWord, toNat_append_eq, BitVec.toNat_ofNat, Nat.mod_eq_of_lt]
  omega

theorem encode_eq_commandWord (i : Instr) : encode i = commandWord (encodeOp i).toNat (encodeOperand i).toNat :=
  append_eq_commandWord _ _

/-! ### Operands that fit their fields, or are rejected (R76) -/

theorem fitField_of_lt {n v : Nat} (h : v < 2 ^ n) : fitField n v = .ok (BitVec.ofNat n v) := if_pos h

theorem fitField_of_not_lt {n v : Nat} (h : ¬ v < 2 ^ n) : fitField n v = .error .operandTooWide := if_neg h

theorem toNat_ofNat_of_lt {n v : Nat} (h : v < 2 ^ n) : (BitVec.ofNat n v).toNat = v := by
  rw [BitVec.toNat_ofNat, Nat.mod_eq_of_lt h]

theorem oneOperand_singleton {n : Nat} (mk : BitVec n → Instr) (v : Nat) :
    oneOperand mk [v] = if v < 2 ^ n then .ok (mk (BitVec.ofNat n v)) else .error .operandTooWide := by
  by_cases h : v < 2 ^ n
  · simp [oneOperand, fitField_of_lt h, h]
  · simp [oneOperand, fitField_of_not_lt h, h]

theorem fourOperands_four {n : Nat} (mk : BitVec n → BitVec n → BitVec n → BitVec n → Instr) (r g b a : Nat) :
    fourOperands mk [r, g, b, a] =
      if r < 2 ^ n ∧ g < 2 ^ n ∧ b < 2 ^ n ∧ a < 2 ^ n then
        .ok (mk (BitVec.ofNat n r) (BitVec.ofNat n g) (BitVec.ofNat n b) (BitVec.ofNat n a))
      else .error .operandTooWide := by
  by_cases hr : r < 2 ^ n
  case neg => simp [fourOperands, fitField_of_not_lt hr, hr]
  by_cases hg : g < 2 ^ n
  case neg => simp [fourOperands, fitField_of_not_lt hg, hg]
  by_cases hb : b < 2 ^ n
  case neg => simp [fourOperands, fitField_of_not_lt hb, hb]
  by_cases ha : a < 2 ^ n
  case neg => simp [fourOperands, fitField_of_not_lt ha, ha]
  simp [fourOperands, fitField_of_lt hr, fitField_of_lt hg, fitField_of_lt hb, fitField_of_lt ha, hr, hg, hb, ha]

/-! ### Lines of an operation without `keep` -/

/-- The names that stand for themselves and name an operation or a pseudo-operation without `keep`. -/
def plainNames : List String :=
  (codesS16 ++ codesS8 ++ codesPX).map (·.1) ++ ["PACK", "widen", "narrow"]

theorem mem_plainNames {p : String × Nat} (h : p ∈ codesS16 ++ codesS8 ++ codesPX) : p.1 ∈ plainNames :=
  List.mem_append_left _ (List.mem_map_of_mem h)

theorem plainNames_mnemonicOf :
    ∀ name ∈ plainNames, name ≠ ".op" ∧ mnemonicOf name = name ∧ name ≠ "PACK_RGBA32" := by
  decide

theorem assemble_plain {name : String} (h : name ∈ plainNames) (operands : List Nat) :
    assemble ⟨name, operands, none⟩ = (plainCommand name operands).map encode := by
  obtain ⟨not_op, itself, not_group⟩ := plainNames_mnemonicOf name h
  have command : lineCommand ⟨name, operands, none⟩ = plainCommand name operands := by
    simp [lineCommand, itself, not_group]
  rw [assemble, if_neg not_op, command]
  cases plainCommand name operands <;> rfl

/-- `name` is the operation with one operand of `n` bits, of that code, whose operand word is the operand. -/
def NamesOneOperand (n : Nat) (name : String) (code : Nat) : Prop :=
  ∃ mk : BitVec n → Instr, (∀ operands, plainCommand name operands = oneOperand mk operands) ∧
    ∀ x, (encodeOp (mk x)).toNat = code ∧ (encodeOperand (mk x)).toNat = x.toNat

theorem assemble_oneOperand {n code : Nat} {name : String} (hname : name ∈ plainNames) (h : NamesOneOperand n name code) (v : Nat) :
    assemble ⟨name, [v], none⟩ = if v < 2 ^ n then .ok (commandWord code v) else .error .operandTooWide := by
  obtain ⟨mk, command, parts⟩ := h
  rw [assemble_plain hname, command, oneOperand_singleton]
  split
  case isTrue hv =>
    obtain ⟨hcode, hoperand⟩ := parts (BitVec.ofNat n v)
    rw [Except.map, encode_eq_commandWord, hcode, hoperand, toNat_ofNat_of_lt hv]
  case isFalse => rfl

theorem namesOneOperand_of_mem_codesS16 {p : String × Nat} (h : p ∈ codesS16) : NamesOneOperand 16 p.1 p.2 := by
  simp only [codesS16, List.mem_cons, List.not_mem_nil, or_false] at h
  obtain rfl | rfl | rfl | rfl | rfl | rfl | rfl | rfl | rfl | rfl | rfl | rfl | rfl := h
  all_goals exact ⟨_, fun _ => rfl, fun x => ⟨rfl, layS16_toNat x⟩⟩

theorem namesOneOperand_of_mem_codesS8 {p : String × Nat} (h : p ∈ codesS8) : NamesOneOperand 8 p.1 p.2 := by
  simp only [codesS8, List.mem_cons, List.not_mem_nil, or_false] at h
  obtain rfl | rfl := h
  all_goals exact ⟨_, fun _ => rfl, fun x => ⟨rfl, layS8_toNat x⟩⟩

theorem namesOneOperand_of_mem_codesPX {p : String × Nat} (h : p ∈ codesPX) : NamesOneOperand 64 p.1 p.2 := by
  simp only [codesPX, List.mem_cons, List.not_mem_nil, or_false] at h
  obtain rfl | rfl | rfl | rfl | rfl := h
  all_goals exact ⟨_, fun _ => rfl, fun x => ⟨rfl, rfl⟩⟩

/-! ### The lines of `PACK`, `PACK_RGBA32` and `.op` -/

theorem encode_pack {r g b a : Nat} (hr : r < 2 ^ 16) (hg : g < 2 ^ 16) (hb : b < 2 ^ 16) (ha : a < 2 ^ 16) :
    encode (.pack (BitVec.ofNat 16 r) (BitVec.ofNat 16 g) (BitVec.ofNat 16 b) (BitVec.ofNat 16 a)) =
      commandWord 0x14 (a * 2 ^ 48 + b * 2 ^ 32 + g * 2 ^ 16 + r) := by
  rw [encode_eq_commandWord, encodeOperand, layQ16_toNat, toNat_ofNat_of_lt hr, toNat_ofNat_of_lt hg, toNat_ofNat_of_lt hb,
    toNat_ofNat_of_lt ha]
  rfl

theorem assemble_pack (r g b a : Nat) : assemble ⟨"PACK", [r, g, b, a], none⟩ =
    if r < 2 ^ 16 ∧ g < 2 ^ 16 ∧ b < 2 ^ 16 ∧ a < 2 ^ 16 then
      .ok (commandWord 0x14 (a * 2 ^ 48 + b * 2 ^ 32 + g * 2 ^ 16 + r))
    else .error .operandTooWide := by
  have command : plainCommand "PACK" [r, g, b, a] = fourOperands .pack [r, g, b, a] := rfl
  rw [assemble_plain (by decide), command, fourOperands_four]
  split
  case isTrue fits =>
    obtain ⟨hr, hg, hb, ha⟩ := fits
    rw [Except.map, encode_pack hr hg hb ha]
  case isFalse => rfl

theorem encode_packRgba32 {r g b a k : Nat} (hr : r < 2 ^ 8) (hg : g < 2 ^ 8) (hb : b < 2 ^ 8) (ha : a < 2 ^ 8) (hk : k < 2 ^ 4) :
    encode (.packRgba32 (BitVec.ofNat 8 r) (BitVec.ofNat 8 g) (BitVec.ofNat 8 b) (BitVec.ofNat 8 a) (BitVec.ofNat 4 k)) =
      commandWord 0x15 (k * 2 ^ 32 + a * 2 ^ 24 + b * 2 ^ 16 + g * 2 ^ 8 + r) := by
  rw [encode_eq_commandWord, encodeOperand, layB4K_toNat, toNat_ofNat_of_lt hr, toNat_ofNat_of_lt hg, toNat_ofNat_of_lt hb,
    toNat_ofNat_of_lt ha, toNat_ofNat_of_lt hk]
  rfl

theorem groupCommand_four (r g b a k : Nat) : (groupCommand [r, g, b, a] k).map encode =
    if r < 2 ^ 8 ∧ g < 2 ^ 8 ∧ b < 2 ^ 8 ∧ a < 2 ^ 8 ∧ k < 2 ^ 4 then
      .ok (commandWord 0x15 (k * 2 ^ 32 + a * 2 ^ 24 + b * 2 ^ 16 + g * 2 ^ 8 + r))
    else .error .operandTooWide := by
  by_cases hk : k < 2 ^ 4
  · rw [groupCommand, fitField_of_lt hk]
    simp only [fourOperands_four, hk, and_true]
    split
    case isTrue fits =>
      obtain ⟨hr, hg, hb, ha⟩ := fits
      rw [Except.map, encode_packRgba32 hr hg hb ha hk]
    case isFalse => rfl
  · rw [groupCommand, fitField_of_not_lt hk, if_neg fun fits => hk fits.2.2.2.2]
    rfl

theorem assemble_packRgba32 (operands : List Nat) (keep : Option Nat) :
    assemble ⟨"PACK_RGBA32", operands, keep⟩ = (groupCommand operands (keep.getD 0b1111)).map encode := by
  have not_op : "PACK_RGBA32" ≠ ".op" := by decide
  have itself : mnemonicOf "PACK_RGBA32" = "PACK_RGBA32" := by decide
  have command : lineCommand ⟨"PACK_RGBA32", operands, keep⟩ = groupCommand operands (keep.getD 0b1111) := by
    simp [lineCommand, itself]
  rw [assemble, if_neg not_op, command]
  cases groupCommand operands (keep.getD 0b1111) <;> rfl

/-- `.op` takes a reserved code with any operand of 64 bits (R74, R76). -/
theorem assemble_reserved {code : Nat} (hcode : code ∈ reservedCodes) (a : Nat) :
    assemble ⟨".op", [code, a], none⟩ = if a < 2 ^ 64 then .ok (commandWord code a) else .error .operandTooWide := by
  have five_bits : code < 2 ^ 5 := by
    revert code
    decide
  have line : assemble ⟨".op", [code, a], none⟩ = reservedWord [code, a] := rfl
  rw [line, reservedWord, fitField_of_lt five_bits]
  by_cases ha : a < 2 ^ 64
  · have reserved : (decodeCmd (BitVec.ofNat 5 code) (BitVec.ofNat 64 a)).named = false := by
      rw [decodeCmd_not_named_iff, toNat_ofNat_of_lt five_bits]
      exact hcode
    simp only [fitField_of_lt ha, reserved, append_eq_commandWord, toNat_ofNat_of_lt five_bits, toNat_ofNat_of_lt ha, if_pos ha,
      Bool.false_eq_true, if_false]
  · simp only [fitField_of_not_lt ha, if_neg ha]

/-- Settles O52, format by format. -/
theorem assemblerFitsOrRejects : Obligations.AssemblerFitsOrRejects := by
  refine ⟨fun p hp => ?_, fun p hp => ?_, fun p hp => ?_, assemble_pack, fun r g b a keep => ?_, fun code a hcode => ?_⟩
  · exact assemble_oneOperand (mem_plainNames (by simp [hp])) (namesOneOperand_of_mem_codesS16 hp)
  · exact assemble_oneOperand (mem_plainNames (by simp [hp])) (namesOneOperand_of_mem_codesS8 hp)
  · exact assemble_oneOperand (mem_plainNames (by simp [hp])) (namesOneOperand_of_mem_codesPX hp)
  · rw [assemble_packRgba32, groupCommand_four]
  · exact assemble_reserved hcode a

/-! ### `widen` and `narrow` (R80) -/

theorem exists_depth_iff (f : Nat) : f ∈ [8, 10, 12, 16] ↔ ∃ S : Depth, S.bits = f := by
  constructor
  · intro h
    simp only [List.mem_cons, List.not_mem_nil, or_false] at h
    obtain rfl | rfl | rfl | rfl := h
    exacts [⟨.d8, rfl⟩, ⟨.d10, rfl⟩, ⟨.d12, rfl⟩, ⟨.d16, rfl⟩]
  · rintro ⟨S, rfl⟩
    cases S <;> decide

/-- `widen` has a command at two depths with a smaller first one only. -/
theorem pair_of_widenCommand {f t : Nat} {mk : Sample → Instr} (h : widenCommand f t = some mk) :
    f ∈ [8, 10, 12, 16] ∧ t ∈ [8, 10, 12, 16] ∧ f < t := by
  unfold widenCommand at h
  split at h
  all_goals cases h
  all_goals decide

/-- `narrow` has a command at two depths with a larger first one only. -/
theorem pair_of_narrowCommand {f t : Nat} {mk : Sample → Instr} (h : narrowCommand f t = some mk) :
    f ∈ [8, 10, 12, 16] ∧ t ∈ [8, 10, 12, 16] ∧ t < f := by
  unfold narrowCommand at h
  split at h
  all_goals cases h
  all_goals decide

/-- A command that is given at pairs of depths in the order `lt`, and at no other pairs, is given exactly at those. -/
theorem isSome_iff_of_pairs {command : Nat → Nat → Option (Sample → Instr)} {lt : Nat → Nat → Prop}
    (only : ∀ {f t mk}, command f t = some mk → f ∈ [8, 10, 12, 16] ∧ t ∈ [8, 10, 12, 16] ∧ lt f t)
    (given : ∀ S T : Depth, lt S.bits T.bits → ∃ mk, command S.bits T.bits = some mk) (f t : Nat) :
    (command f t).isSome = true ↔ f ∈ [8, 10, 12, 16] ∧ t ∈ [8, 10, 12, 16] ∧ lt f t := by
  rw [Option.isSome_iff_exists]
  constructor
  · rintro ⟨mk, h⟩
    exact only h
  · rintro ⟨hf, ht, hlt⟩
    obtain ⟨S, rfl⟩ := (exists_depth_iff f).1 hf
    obtain ⟨T, rfl⟩ := (exists_depth_iff t).1 ht
    exact given S T hlt

theorem widenCommand_isSome_iff (f t : Nat) :
    (widenCommand f t).isSome = true ↔ f ∈ [8, 10, 12, 16] ∧ t ∈ [8, 10, 12, 16] ∧ f < t := by
  refine isSome_iff_of_pairs (lt := fun f t => f < t) pair_of_widenCommand (fun S T hlt => ?_) f t
  obtain ⟨mk, h, -⟩ := decodeCmd_widening hlt 0
  exact ⟨mk, h⟩

theorem narrowCommand_isSome_iff (f t : Nat) :
    (narrowCommand f t).isSome = true ↔ f ∈ [8, 10, 12, 16] ∧ t ∈ [8, 10, 12, 16] ∧ t < f := by
  refine isSome_iff_of_pairs (lt := fun f t => t < f) pair_of_narrowCommand (fun S T hlt => ?_) f t
  obtain ⟨mk, h, -⟩ := decodeCmd_narrowing hlt 0
  exact ⟨mk, h⟩

/-- The command of two depths is what their code in group 0 decodes to, so it has that code (R71). -/
theorem encodeOp_pairCommand {S T : Depth} {mk : Sample → Instr} (v : Sample)
    (h : widenCommand S.bits T.bits = some mk ∨ narrowCommand S.bits T.bits = some mk) :
    encodeOp (mk v) = 0#1 ++ S.code ++ T.code := by
  have decoded : decodeCmd (0#1 ++ S.code ++ T.code) (layS16 v) = mk v := by
    obtain h | h := h
    · obtain ⟨mk', h', decoded⟩ := decodeCmd_widening (pair_of_widenCommand h).2.2 (layS16 v)
      rw [decoded, fieldS16_layS16, Option.some.inj (h'.symm.trans h)]
    · obtain ⟨mk', h', decoded⟩ := decodeCmd_narrowing (pair_of_narrowCommand h).2.2 (layS16 v)
      rw [decoded, fieldS16_layS16, Option.some.inj (h'.symm.trans h)]
  rw [← decoded, encodeOp_decodeCmd]

/-- A line of `widen` or `narrow`: refused without a command for the pair, else the line of that command (R80; log 13). -/
theorem pairOperation_three (command : Nat → Nat → Option (Sample → Instr)) (v f t : Nat) :
    (pairOperation command [v, f, t]).map encode =
      match command f t with
      | none => .error .noSuchPair
      | some mk => if v < 2 ^ 16 then .ok (encode (mk (BitVec.ofNat 16 v))) else .error .operandTooWide := by
  rw [pairOperation]
  cases command f t with
  | none => rfl
  | some mk =>
    simp only [oneOperand_singleton]
    split <;> rfl

/-- Settles O53: the pairs and codes are those of group 0 of the opcode map, and the two lines are those of a pair. -/
theorem parametrisedFormsAtDocumentedPairs : Obligations.ParametrisedFormsAtDocumentedPairs := by
  refine ⟨widenCommand_isSome_iff, narrowCommand_isSome_iff, fun S T mk v => encodeOp_pairCommand v, fun v f t => ?_, fun v f t => ?_⟩
  · have command : plainCommand "widen" [v, f, t] = pairOperation widenCommand [v, f, t] := rfl
    rw [assemble_plain (by decide), command]
    exact pairOperation_three widenCommand v f t
  · have command : plainCommand "narrow" [v, f, t] = pairOperation narrowCommand [v, f, t] := rfl
    rw [assemble_plain (by decide), command]
    exact pairOperation_three narrowCommand v f t

end Sys2Proof.Assembling
